-- ==== Sys2Proof/Word.lean ====
section
/-! DEFINITION. The block's word types (00_scope.md R8, R9): widths only, no arithmetic of its own. -/

namespace Sys2Proof

/-- `u8`: a received byte, `BASE_SPEED`, a motor duty (R8). -/
abbrev Byte := BitVec 8

/-- `u16`: the range reading (R8). -/
abbrev Half := BitVec 16

/-- `i32`: 32-bit two's complement, read as a signed integer by `BitVec.toInt` (R8). -/
abbrev Word := BitVec 32

/-- The 16-bit operation key `K` (30_encoding.md R58). -/
abbrev Key := BitVec 16

/-- The 7-bit byte counter `cnt` (10_state.md R22). -/
abbrev Count := BitVec 7

end Sys2Proof
end

