-- ==== Sys2Proof/Machine/Constants.lean ====
section
/-! DEFINITION. The hardwired constants of 00_scope.md R7, in the one record D30 asks for. -/

namespace Sys2Proof.Machine

/-- The names of R7. No operation writes one: the record stands outside State. -/
structure Constants where
  kp : Int
  ki : Int
  kd : Int
  w0 : Int
  w1 : Int
  w2 : Int
  w3 : Int
  w4 : Int
  offset : Int
  flagByte : Byte
  triggerByte : Byte
  nFixed : Nat
  sentinel : Byte
  bodyLen : Nat
  rangeThreshold : Nat
  dutyMin : Int
  dutyMax : Int
deriving DecidableEq, Repr

/-- R7's values. UNVERIFIED (log 17): the spec says they are not audited against the repository's code.
unsafe: a wrong literal makes the statements about it wrong. -/
def constants : Constants where
  kp := 5
  ki := 1
  kd := 10
  w0 := 5
  w1 := 10
  w2 := 15
  w3 := 20
  w4 := 25
  offset := 15
  flagByte := 48
  triggerByte := 0x30
  nFixed := 5
  sentinel := 0x7B
  bodyLen := 74
  rangeThreshold := 2000
  dutyMin := 0
  dutyMax := 100

end Sys2Proof.Machine
end

