-- ==== Sys2Proof/Config.lean ====
section
/-! DEFINITION. The build-time parameters of 00_scope.md R6 and the values the spec leaves OPEN.

The parameters that are plain data stand in `Params`, which `Machine.State` carries and no step changes (R119;
log 1). The values no source gives are constants without a body: nothing can be proved about which value they
have (log 2, log 3, log 8). -/

namespace Sys2Proof

/-- `FRAME_MODE` (R6): `FIXED` (0) or `DELIMITED` (1). -/
inductive FrameMode where
  | fixed
  | delimited
deriving DecidableEq, Repr, Inhabited

/-- `FAULT_STANDBY` (R6): whether a fault report engages standby (60_exceptions.md R102). -/
inductive FaultStandby where
  | assert
  | hold
deriving DecidableEq, Repr, Inhabited

/-- `ARITH_OVERFLOW` (R6): wrap modulo 2^32 (43_pid.md R85) or halt (R86) on `i32` overflow. -/
inductive ArithOverflow where
  | wrap
  | halt
deriving DecidableEq, Repr, Inhabited

/-- The parameters that are plain data (R6). -/
structure Params where
  frameMode     : FrameMode
  baseSpeed     : Byte
  faultStandby  : FaultStandby
  arithOverflow : ArithOverflow
deriving DecidableEq, Repr, Inhabited

/-- The record a structured decode answers with (R6): `(error: i32, flag0: bool, flag1: bool)`. -/
structure StructRecord where
  error : Word
  flag0 : Bool
  flag1 : Bool
deriving DecidableEq, Repr, Inhabited

/-- The type of `STRUCT_DECODE` (R6): a total function of the 74 body bytes; `none` is the spec's `Fail`. -/
abbrev StructDecode := (Fin 74 → Byte) → Option StructRecord

/-- `STRUCT_DECODE`, OPEN (D8): no source defines it, so it is a function about which nothing is known.
DESIGN CHOICE (log 3). safe: a statement about it holds for every structured decoder. -/
opaque Config.structDecode : StructDecode

/-- `FRAME_MODE` of the block that is reset, which the spec gives no default for.
DESIGN CHOICE (log 2). safe: nothing can be proved about which of the two it is. -/
opaque Config.frameMode : FrameMode

/-- `BASE_SPEED` of the block that is reset, OPEN (D7).
DESIGN CHOICE (log 2). safe: nothing can be proved about its value. -/
opaque Config.baseSpeed : Byte

/-- The level of the input `range_in` when reset is released: a free input (70_reset_and_hazards.md R123).
DESIGN CHOICE (log 8). safe: nothing can be proved about its value. -/
opaque Config.rangeAtReset : Half

/-- The parameters of the block that `State.reset` resets: R6's defaults `ASSERT` and `WRAP`, the rest free (log 2). -/
def Config.params : Params where
  frameMode     := Config.frameMode
  baseSpeed     := Config.baseSpeed
  faultStandby  := .assert
  arithOverflow := .wrap

end Sys2Proof
end

