-- ==== Sys2Proof/Syntax.lean ====
section
/-! DEFINITION. The operations of the opcode map (30_encoding.md R62), one constructor a row, and the fields of an
operation key that are fixed sets of names (R25, R59). -/

namespace Sys2Proof

/-- The sequencer phase, the block's program counter (10_state.md R25). -/
inductive Phase where
  | start
  | recv
  | hunt
  | body
  | decode
  | pid
  | map
  | halted
deriving DecidableEq, Repr, Inhabited

/-- The EV field of a key (30_encoding.md R59): the channel event a step consumes. -/
inductive Ev where
  | none
  | rxb
  | rxf
  | txa
deriving DecidableEq, Repr, Inhabited

/-- The thirteen operations, without operands (R62). -/
inductive Op where
  | fsTrig | fsHunt | fsFixb | fsFixf | fsSent | fsSkip | fsHuntf | fsBodyb | fsBodyf
  | decRaw | decStr
  | pidStep
  | mapDrv
deriving DecidableEq, Repr

/-- An operation with what its key carries (R60, R62): the received byte of an RXB key, and for the two rows whose
MODE bit is don't care the value that bit has (DESIGN CHOICE, log 19; safe: the meanings do not read it). -/
inductive Instr where
  | fsTrig
  | fsHunt
  | fsFixb (b : Byte)
  | fsFixf
  | fsSent
  | fsSkip (b : Byte)
  | fsHuntf
  | fsBodyb (b : Byte)
  | fsBodyf
  | decRaw
  | decStr
  | pidStep (m : FrameMode)
  | mapDrv (m : FrameMode)
deriving DecidableEq, Repr

/-- Which row of the opcode map an instruction is. -/
def Instr.op : Instr → Op
  | .fsTrig => .fsTrig
  | .fsHunt => .fsHunt
  | .fsFixb _ => .fsFixb
  | .fsFixf => .fsFixf
  | .fsSent => .fsSent
  | .fsSkip _ => .fsSkip
  | .fsHuntf => .fsHuntf
  | .fsBodyb _ => .fsBodyb
  | .fsBodyf => .fsBodyf
  | .decRaw => .decRaw
  | .decStr => .decStr
  | .pidStep _ => .pidStep
  | .mapDrv _ => .mapDrv

end Sys2Proof
end

