-- ==== Sys2Proof/WellFormed.lean ====
section
/-! DEFINITION. Which instructions have a key of their own (30_encoding.md R62, R63). -/

namespace Sys2Proof

/-- FS.SKIP carries any byte but the sentinel 0x7B, whose key is FS.SENT's (R62 row 6, R63). Every other
operand value is admitted. -/
def Instr.wellFormed : Instr → Bool
  | .fsTrig => true
  | .fsHunt => true
  | .fsFixb _ => true
  | .fsFixf => true
  | .fsSent => true
  | .fsSkip b => b != 0x7B
  | .fsHuntf => true
  | .fsBodyb _ => true
  | .fsBodyf => true
  | .decRaw => true
  | .decStr => true
  | .pidStep _ => true
  | .mapDrv _ => true

end Sys2Proof
end

