-- ==== Sys2Proof/Decode.lean ====
section
/-! DEFINITION. The operation key (30_encoding.md R58 to R64): its fields, the opcode map, the decoder, total on
every key and rejecting by name, and the encoder written from the same map. -/

namespace Sys2Proof

/-! ## Field codes -/

/-- MODE (R58): 0 = FIXED, 1 = DELIMITED. -/
def FrameMode.code : FrameMode → BitVec 1
  | .fixed => 0
  | .delimited => 1

def FrameMode.ofCode (c : BitVec 1) : FrameMode := if c = 0 then .fixed else .delimited

/-- PHASE (10_state.md R25). -/
def Phase.code : Phase → BitVec 3
  | .start => 0
  | .recv => 1
  | .hunt => 2
  | .body => 3
  | .decode => 4
  | .pid => 5
  | .map => 6
  | .halted => 7

def Phase.ofCode (c : BitVec 3) : Phase :=
  if c = 0 then .start else if c = 1 then .recv else if c = 2 then .hunt else if c = 3 then .body
  else if c = 4 then .decode else if c = 5 then .pid else if c = 6 then .map else .halted

/-- EV (R59). -/
def Ev.code : Ev → BitVec 2
  | .none => 0
  | .rxb => 1
  | .rxf => 2
  | .txa => 3

def Ev.ofCode (c : BitVec 2) : Ev :=
  if c = 0 then .none else if c = 1 then .rxb else if c = 2 then .rxf else .txa

/-! ## Key fields (R58) -/

def keyMode (k : Key) : FrameMode := .ofCode (k.extractLsb' 15 1)
def keyPhase (k : Key) : Phase := .ofCode (k.extractLsb' 12 3)
def keyEv (k : Key) : Ev := .ofCode (k.extractLsb' 10 2)
def keyRes (k : Key) : BitVec 2 := k.extractLsb' 8 2
def keyData (k : Key) : Byte := k.extractLsb' 0 8

/-- `{MODE, PHASE, EV, 00, DATA}` (R58, R61). -/
def makeKey (m : FrameMode) (p : Phase) (e : Ev) (d : Byte) : Key :=
  m.code ++ p.code ++ e.code ++ (0 : BitVec 2) ++ d

/-! ## The opcode map (R62) -/

/-- One row: the keys with `(K & mask) = match`. -/
structure Row where
  op      : Op
  pattern : Key
  mask    : Key
deriving DecidableEq, Repr

/-- The thirteen rows of R62, in its order. -/
def rows : List Row :=
  [ ⟨.fsTrig,  0x0C00, 0xFFFF⟩
  , ⟨.fsHunt,  0x8000, 0xFFFF⟩
  , ⟨.fsFixb,  0x1400, 0xFF00⟩
  , ⟨.fsFixf,  0x1800, 0xFFFF⟩
  , ⟨.fsSent,  0xA47B, 0xFFFF⟩
  , ⟨.fsSkip,  0xA400, 0xFF00⟩
  , ⟨.fsHuntf, 0xA800, 0xFFFF⟩
  , ⟨.fsBodyb, 0xB400, 0xFF00⟩
  , ⟨.fsBodyf, 0xB800, 0xFFFF⟩
  , ⟨.decRaw,  0x4000, 0xFFFF⟩
  , ⟨.decStr,  0xC000, 0xFFFF⟩
  , ⟨.pidStep, 0x5000, 0x7FFF⟩
  , ⟨.mapDrv,  0x6000, 0x7FFF⟩ ]

def Row.accepts (r : Row) (k : Key) : Bool := (k &&& r.mask) == r.pattern

/-- How many mask bits are set. -/
def maskBits (m : Key) : Nat := (List.range 16).countP fun i => m.getLsbD i

/-- R62: where two rows match, the row with more mask bits set wins. -/
def preferRow (best : Option Row) (r : Row) : Option Row :=
  match best with
  | none => some r
  | some b => if maskBits b.mask < maskBits r.mask then some r else some b

/-- The row a key selects, if any. -/
def selectRow (k : Key) : Option Row :=
  rows.foldl (fun best r => if r.accepts k then preferRow best r else best) none

/-- Operand assembly (R60): the received byte is `K[7:0]`, used as is. -/
def assemble (o : Op) (k : Key) : Instr :=
  match o with
  | .fsTrig => .fsTrig
  | .fsHunt => .fsHunt
  | .fsFixb => .fsFixb (keyData k)
  | .fsFixf => .fsFixf
  | .fsSent => .fsSent
  | .fsSkip => .fsSkip (keyData k)
  | .fsHuntf => .fsHuntf
  | .fsBodyb => .fsBodyb (keyData k)
  | .fsBodyf => .fsBodyf
  | .decRaw => .decRaw
  | .decStr => .decStr
  | .pidStep => .pidStep (keyMode k)
  | .mapDrv => .mapDrv (keyMode k)

/-! ## Keys that select no operation (R64) -/

/-- The six classes of R64, (a) to (f). -/
inductive KeyReject where
  /-- (a) RES is not 0, or DATA is not 0 with EV other than 01. -/
  | malformed
  /-- (b) PHASE = 111. -/
  | haltedPhase
  /-- (c) no event while the block waits on the channel. -/
  | noEvent
  /-- (d) a receive the block does not accept. -/
  | notReceiving
  /-- (e) a transmit that is not pending. -/
  | notTransmitting
  /-- (f) a phase the mode does not have. -/
  | unreachablePhase
deriving DecidableEq, Repr

def KeyReject.all : List KeyReject :=
  [.malformed, .haltedPhase, .noEvent, .notReceiving, .notTransmitting, .unreachablePhase]

/-- How R64 says a key of the class is treated. -/
inductive Treatment where
  | refuse
  | stuck
  | noStep
deriving DecidableEq, Repr

def KeyReject.treatment : KeyReject → Treatment
  | .malformed => .refuse
  | .haltedPhase => .stuck
  | .noEvent => .noStep
  | .notReceiving => .noStep
  | .notTransmitting => .noStep
  | .unreachablePhase => .refuse

/-- R64's condition of each class, word for word; the classes overlap. -/
def KeyReject.holds (c : KeyReject) (k : Key) : Bool :=
  match c with
  | .malformed => keyRes k != 0 || (keyData k != 0 && keyEv k != .rxb)
  | .haltedPhase => keyPhase k == .halted
  | .noEvent =>
      (keyEv k == .none && [Phase.recv, .hunt, .body].contains (keyPhase k)) ||
      (keyEv k != .txa && keyMode k == .fixed && keyPhase k == .start)
  | .notReceiving =>
      (keyEv k == .rxb || keyEv k == .rxf) && [Phase.start, .decode, .pid, .map].contains (keyPhase k)
  | .notTransmitting => keyEv k == .txa && !(keyMode k == .fixed && keyPhase k == .start)
  | .unreachablePhase =>
      (keyMode k == .fixed && [Phase.hunt, .body].contains (keyPhase k)) ||
      (keyMode k == .delimited && keyPhase k == .recv)

/-- The class a rejected key is named by: the first that holds in the order (a), (b), (f), (c), (d), (e).
DEDUCED (log 9): R64 gives no order among overlapping classes. safe: every order names the same rejected keys. -/
def rejectOf (k : Key) : KeyReject :=
  if KeyReject.malformed.holds k then .malformed
  else if KeyReject.haltedPhase.holds k then .haltedPhase
  else if KeyReject.unreachablePhase.holds k then .unreachablePhase
  else if KeyReject.noEvent.holds k then .noEvent
  else if KeyReject.notReceiving.holds k then .notReceiving
  else .notTransmitting

/-! ## Decoder and encoder -/

/-- The operation a key selects (R62, R63), or the class of R64 it is rejected by. -/
def decode (k : Key) : Except KeyReject Instr :=
  match selectRow k with
  | some r => .ok (assemble r.op k)
  | none => .error (rejectOf k)

/-- The `match` value of an operation's row (R62). -/
def patternOf (o : Op) : Key :=
  match rows.find? fun r => r.op == o with
  | some r => r.pattern
  | none => 0

/-- `b` in the DATA field (R58). -/
def dataField (b : Byte) : Key := b.setWidth 16

/-- `m` in the MODE field (R58). -/
def modeField (m : FrameMode) : Key := m.code ++ (0 : BitVec 15)

/-- The key of an instruction, from the encoding column of R62. -/
def encode (i : Instr) : Key :=
  match i with
  | .fsTrig => patternOf .fsTrig
  | .fsHunt => patternOf .fsHunt
  | .fsFixb b => patternOf .fsFixb ||| dataField b
  | .fsFixf => patternOf .fsFixf
  | .fsSent => patternOf .fsSent
  | .fsSkip b => patternOf .fsSkip ||| dataField b
  | .fsHuntf => patternOf .fsHuntf
  | .fsBodyb b => patternOf .fsBodyb ||| dataField b
  | .fsBodyf => patternOf .fsBodyf
  | .decRaw => patternOf .decRaw
  | .decStr => patternOf .decStr
  | .pidStep m => patternOf .pidStep ||| modeField m
  | .mapDrv m => patternOf .mapDrv ||| modeField m

/-- The low `nbits` bits of `w` as a key; every bit above them is 0. -/
def tableKey (nbits w : Nat) : Key := BitVec.ofNat 16 (w % 2 ^ nbits)

/-- The instruction the decoder reads from a key given as a number. -/
def decodeTableWord (nbits w : Nat) : Option Instr :=
  match decode (tableKey nbits w) with
  | .ok i => some i
  | .error _ => none

end Sys2Proof
end

