-- ==== Sys2Proof/Machine/State.lean ====
section
/-! DEFINITION. The block's state (10_state.md R15), the data its ports carry, its reset value (R40), and the ways a
step can stop. -/

namespace Sys2Proof.Machine

/-- The payload buffer `buf` (20_memory.md R41): the listed bytes, indices strictly rising, none of them equal to
what an unlisted index reads as, the reset value 0 of R40 (log 11). -/
abbrev Memory := List Host.Cell

/-- The stage of a fault report (30_encoding.md R57, 60_exceptions.md R101). -/
inductive Stage where
  | read
  | frame
  | decode
deriving DecidableEq, Repr

/-- The motors (10_state.md R27). -/
inductive Motor where
  | a
  | b
deriving DecidableEq, Repr

/-- An output event of a step (10_state.md R39). -/
inductive OutEvent where
  /-- `emit tx(b)`: a transmit transfer of byte `b`. -/
  | tx (b : Byte)
  /-- `emit drive(m, fwd, duty)`: one Motor Actuator `drive` call. -/
  | drive (m : Motor) (fwd : Bool) (duty : Byte)
  /-- `raise Fault(stage)`: one report to the Fault Sink. -/
  | fault (stage : Stage)
deriving DecidableEq, Repr

/-- One line of a stimulus (30_encoding.md R66, R68): what the environment does next. -/
inductive EnvEvent where
  /-- `TXA`: the channel accepts the pending transmit. -/
  | txa
  /-- `RXB b`: the channel delivers a byte. -/
  | rxb (b : Byte)
  /-- `RXF`: the channel reports a failed read. -/
  | rxf
  /-- `RANGE n`: from now on `range_in` is `n`. -/
  | range (n : Half)
  /-- `RESET`: one step with `rst` = 1. -/
  | reset
  /-- One step in which the environment offers no channel event. DESIGN CHOICE (log 5): not a line of R66. It lets
  a stimulus place a RESET after internal steps. safe: it only adds runs. -/
  | idle
deriving DecidableEq, Repr

/-- The state. The first fifteen fields after `params` are R15's elements, and R15 says there are no others; `params`
and the last five are the model's own (log 1, 4, 8, 12, 13). -/
structure State where
  /-- The build-time parameters (00_scope.md R6); no step changes them (R119). -/
  params     : Params
  /-- `integral` (R16). -/
  integral   : Word
  /-- `last_error` (R17). -/
  lastError  : Word
  /-- `err_reg` (R19). -/
  errReg     : Word
  /-- `flag0` (R20). -/
  flag0      : Bool
  /-- `flag1` (R20). -/
  flag1      : Bool
  /-- `turn_reg` (R21). -/
  turnReg    : Word
  /-- `buf` (R24). -/
  buf        : Memory
  /-- `cnt` (R22). -/
  cnt        : Count
  /-- `frame_err` (R23). -/
  frameErr   : Bool
  /-- `phase` (R25). -/
  phase      : Phase
  /-- `mota_fwd` (R27); true is forward. -/
  motaFwd    : Bool
  /-- `mota_duty` (R27). -/
  motaDuty   : Byte
  /-- `motb_fwd` (R27). -/
  motbFwd    : Bool
  /-- `motb_duty` (R27). -/
  motbDuty   : Byte
  /-- `standby` (R28); true is engaged. -/
  standby    : Bool
  /-- The environment's coming events, first one first (30_encoding.md R66). -/
  stimulus   : List EnvEvent
  /-- The level of the input `range_in` (R36). -/
  rangeIn    : Half
  /-- Whether `rst` has been asserted since power-on (70_reset_and_hazards.md R117). -/
  resetDone  : Bool
  /-- The output events of the latest step, in order: what the one-step strobes of R37 and R38 show. -/
  stepEvents : List OutEvent
  /-- The output trace (R39), oldest first. -/
  trace      : List OutEvent
deriving DecidableEq, Repr

/-- The state right after reset (R40, R114) of a block with parameters `p`, `range_in` at `r` and no event offered. -/
def State.resetWith (p : Params) (r : Half) : State where
  params     := p
  integral   := 0
  lastError  := 0
  errReg     := 0
  flag0      := false
  flag1      := false
  turnReg    := 0
  buf        := []
  cnt        := 0
  frameErr   := false
  phase      := .start
  motaFwd    := true
  motaDuty   := 0
  motbFwd    := true
  motbDuty   := 0
  standby    := true
  stimulus   := []
  rangeIn    := r
  resetDone  := true
  stepEvents := []
  trace      := []

/-- The state right after reset (R40). The parameters R6 gives no value for, and `range_in`, are free constants
(log 2, log 8). -/
def State.reset : State := State.resetWith Config.params Config.rangeAtReset

/-- The block before `rst` has been asserted (R117): any contents, `resetDone` false. -/
def State.powerOn (contents : State) : State := { contents with resetDone := false }

/-- How a step stops the machine. The spec's own faults are reports and no stop (60_exceptions.md R100). -/
inductive Fault where
  /-- Raised by `step` in phase HALTED with no RESET at the head of the stimulus: the block is stuck until `rst`
  (60_exceptions.md R110, 00_scope.md R13 (c)). safe: the block has no step there (log 7). -/
  | halted
  /-- Raised by FS.FIXB, FS.BODYB and FS.BODYF when `cnt` is past 73: that buffer byte does not exist
  (20_memory.md R41). safe: no run reaches such a state (log 10). -/
  | noSuchByte
deriving DecidableEq, Repr

/-- Why a step is refused. -/
inductive Refusal where
  /-- Raised by an arm of `exec` for an instruction without a meaning; no arm is one. safe. -/
  | notModelled (mnemonic : String)
  /-- Raised by `step` when the formed key is one R64 says to refuse: class (f), in a (mode, phase) pair no run
  reaches. safe (log 9). -/
  | noOperation (c : KeyReject)
  /-- Raised by `step` on a block whose `rst` has not been asserted since power-on: the spec says a model refuses
  such a run (70_reset_and_hazards.md R117). safe (log 13). -/
  | notReset
deriving DecidableEq, Repr

end Sys2Proof.Machine
end

