-- ==== Sys2Proof/Machine/Ops.lean ====
section
/-! DEFINITION. The primitives of 00_scope.md R12 over the state: the payload buffer (20_memory.md R41), output
events, and the fault operations every instruction shares: `raise Fault` (60_exceptions.md R102), `abandon` (R104)
and `halt` (R110). -/

namespace Sys2Proof.Machine

/-! ## The payload buffer -/

/-- What a byte no write has listed reads as: its reset value (10_state.md R40; log 11). -/
def unlistedByte : Byte := 0

/-- The byte at index `k`. -/
def Memory.read : Memory → Nat → Byte
  | [], _ => unlistedByte
  | (a, v) :: m, k => if k = a then v else Memory.read m k

/-- Byte `v` at index `k`, in canonical form: writing what an unlisted byte reads as removes the entry. -/
def Memory.write : Memory → Nat → Byte → Memory
  | [], k, v => if v = unlistedByte then [] else [(k, v)]
  | (a, w) :: m, k, v =>
      if k < a then (if v = unlistedByte then (a, w) :: m else (k, v) :: (a, w) :: m)
      else if k = a then (if v = unlistedByte then m else (k, v) :: m)
      else (a, w) :: Memory.write m k v

/-- Indices strictly rising from at least `lo` and below 74, no entry equal to an unlisted byte. -/
def Memory.wfFrom : Nat → Memory → Bool
  | _, [] => true
  | lo, (a, v) :: m =>
      decide (lo ≤ a) && decide (a < constants.bodyLen) && decide (v ≠ unlistedByte) && Memory.wfFrom (a + 1) m

/-- The canonical form. -/
def Memory.wf (m : Memory) : Bool := Memory.wfFrom 0 m

/-- `MemRead(k, 1)`; the decode operations form the indices 0..73 only. -/
def memRead (s : State) (k : Fin 74) : Byte := Memory.read s.buf k.val

/-- Go on with `f` when `o` is a next state. -/
def thenNext (o : Host.Outcome State Fault Refusal) (f : State → State) : Host.Outcome State Fault Refusal :=
  match o with
  | .next s => .next (f s)
  | .fault r => .fault r
  | .refused r => .refused r

/-- `MemWrite(k, 1, v)`. Indices 74..127 do not exist (R41): such a write faults (DEDUCED, log 10; safe). -/
def memWrite (k : Nat) (v : Byte) (s : State) : Host.Outcome State Fault Refusal :=
  if k < constants.bodyLen then .next { s with buf := Memory.write s.buf k v } else .fault .noSuchByte

/-! ## Output events -/

/-- Record one output event of the step (10_state.md R39). -/
def emit (e : OutEvent) (s : State) : State :=
  { s with stepEvents := s.stepEvents ++ [e], trace := s.trace ++ [e] }

/-! ## Faults, abandonment, halting -/

/-- `fault_stage` (30_encoding.md R57). -/
def Stage.code : Stage → BitVec 2
  | .read => 0
  | .frame => 1
  | .decode => 2

/-- The stage a code names; code 3 is reserved and refused (R57, 93_implementation_defined.md I6). -/
def Stage.ofCode (c : BitVec 2) : Option Stage :=
  if c = 0 then some .read else if c = 1 then some .frame else if c = 2 then some .decode else none

/-- `standby` after a fault report (R102): set under ASSERT, not written under HOLD. -/
def standbyAfterFault (s : State) : Bool :=
  match s.params.faultStandby with
  | .assert => true
  | .hold => s.standby

/-- `raise Fault(stage)` (R102): one report, and the standby write it brings. -/
def raiseFault (st : Stage) (s : State) : State :=
  { emit (.fault st) s with standby := standbyAfterFault s }

/-- `abandon` (R104): the cycle ends, nothing else is written. What follows is the next cycle (R105). -/
def abandon (s : State) : State := { s with phase := .start, cnt := 0, frameErr := false }

/-- A fault that ends the cycle at once (R101, "abandon at once"). -/
def faultAndAbandon (st : Stage) (s : State) : State := abandon (raiseFault st s)

/-- `halt` (R110): no report, the outputs hold. -/
def halt (s : State) : State := { s with phase := .halted }

end Sys2Proof.Machine
end

