-- ==== Sys2Proof/Machine/Flags.lean ====
section
/-! DEFINITION. The block's flags (10_state.md R29): the direction flags of a raw record (42_decode.md R80), the
range gate (44_drive_map.md R92) and the direction truth table they select (R94). The block has no arithmetic
condition codes. -/

namespace Sys2Proof.Machine

/-- A direction flag of the raw record: the byte is 48 (R80; 30_encoding.md R54). -/
def directionFlag (b : Byte) : Bool := b == constants.flagByte

/-- `gate = bool(int(range_in) < 2000)` (R92); true engages standby. -/
def rangeGate (r : Half) : Bool := decide (r.toNat < constants.rangeThreshold)

/-- The direction truth table (R94): the `fwd` bits of motor A and motor B, none in the stop case. -/
def directions (f0 f1 : Bool) : Option (Bool × Bool) :=
  match f0, f1 with
  | true, true => some (true, true)
  | true, false => some (true, false)
  | false, true => some (false, true)
  | false, false => none

end Sys2Proof.Machine
end

