-- ==== Sys2Proof/Machine/Arith.lean ====
section
/-! DEFINITION. The derived operators of 00_scope.md R10, over exact integers. -/

namespace Sys2Proof.Machine

/-- `wrap32(z)`: the `i32` congruent to `z` modulo 2^32. -/
def wrap32 (z : Int) : Word := BitVec.ofInt 32 z

/-- `fits32(z)`: -2^31 <= z <= 2^31 - 1. -/
def fits32 (z : Int) : Bool := decide (-2147483648 ≤ z) && decide (z ≤ 2147483647)

/-- `clamp(z, lo, hi)`. -/
def clamp (z lo hi : Int) : Int := if z < lo then lo else if z > hi then hi else z

end Sys2Proof.Machine
end

