-- ==== Sys2Proof/Machine/Operands.lean ====
section
/-! DEFINITION. What the operations compute from their operands: the raw error (42_decode.md R80), the body
(R81), the control law's values (43_pid.md R84, R86), the wheel duties (44_drive_map.md R93). -/

namespace Sys2Proof.Machine

/-! ## Frames -/

/-- The body `(MemRead(0, 1), ..., MemRead(73, 1))` (42_decode.md R81). -/
def frameBody (s : State) : Fin 74 → Byte := fun k => memRead s k

/-- The exact raw error of five bytes (R80): `5*b0 + 10*b1 + 15*b2 + 20*b3 + 25*b4 - 15`. -/
def rawErrorOf (b0 b1 b2 b3 b4 : Byte) : Int :=
  constants.w0 * b0.toNat + constants.w1 * b1.toNat + constants.w2 * b2.toNat + constants.w3 * b3.toNat
    + constants.w4 * b4.toNat - constants.offset

/-- The exact raw error of the frame in the buffer (R80). -/
def rawError (s : State) : Int :=
  rawErrorOf (memRead s 0) (memRead s 1) (memRead s 2) (memRead s 3) (memRead s 4)

/-! ## The control law -/

/-- `d32`, the derivative (43_pid.md R84): it uses `last_error` from before the step (R89). -/
def derivative32 (e last : Word) : Word := wrap32 (e.toInt - last.toInt)

/-- `I32`, the integral after the step's addition (R84). -/
def integral32 (e integral : Word) : Word := wrap32 (integral.toInt + e.toInt)

/-- `t32`, the turn (R84): it uses the integral after the addition (R89). -/
def turn32 (e integral last : Word) : Word :=
  wrap32 (constants.kp * e.toInt + constants.ki * (integral32 e integral).toInt
    + constants.kd * (derivative32 e last).toInt)

/-- The exact values R86 evaluates, in its order: `d`, `I`, `p`, `q`, `r`, `t`. -/
def exactPidValues (e integral last : Word) : List Int :=
  let d := e.toInt - last.toInt
  let i := integral.toInt + e.toInt
  let p := constants.kp * e.toInt
  let q := p + i
  let r := constants.kd * d
  let t := q + r
  [d, i, p, q, r, t]

/-- Whether any value of R86 fails `fits32`. -/
def pidOverflows (e integral last : Word) : Bool := (exactPidValues e integral last).any fun z => !fits32 z

/-! ## The drive mapper -/

/-- A wheel's duty (44_drive_map.md R93): the exact integer clamped to 0..100. -/
def dutyOf (z : Int) : Byte := BitVec.ofInt 8 (clamp z constants.dutyMin constants.dutyMax)

/-- `left = clamp(BASE_SPEED - turn, 0, 100)`. -/
def leftDuty (base : Byte) (turn : Word) : Byte := dutyOf (base.toNat - turn.toInt)

/-- `right = clamp(BASE_SPEED + turn, 0, 100)`. -/
def rightDuty (base : Byte) (turn : Word) : Byte := dutyOf (base.toNat + turn.toInt)

end Sys2Proof.Machine
end

