-- ==== Sys2Proof/Machine/Decoder.lean ====
section
/-! DEFINITION. The telemetry decoder (42_decode.md R80, R81). -/

namespace Sys2Proof.Machine

/-- DEC.RAW (R80): decode the five-byte raw record. -/
def execDecRaw (s : State) : Host.Outcome State Fault Refusal :=
  .next { s with
    errReg := wrap32 (rawError s)
    flag0 := directionFlag (memRead s 0)
    flag1 := directionFlag (memRead s 1)
    phase := .pid }

/-- The effect of a structured decode's answer (R81): a Decode fault and abandonment, or the latches. -/
def commitStructured (r : Option StructRecord) (s : State) : State :=
  match r with
  | none => faultAndAbandon .decode s
  | some rec => { s with errReg := rec.error, flag0 := rec.flag0, flag1 := rec.flag1, phase := .pid }

/-- DEC.STR (R81) for a given `STRUCT_DECODE`, which R6 makes an argument of the model. -/
def execDecStrWith (dec : StructDecode) (s : State) : Host.Outcome State Fault Refusal :=
  .next (commitStructured (dec (frameBody s)) s)

/-- DEC.STR (R81): decode the 74-byte structured body with the block's own decoder. -/
def execDecStr (s : State) : Host.Outcome State Fault Refusal := execDecStrWith Config.structDecode s

end Sys2Proof.Machine
end

