-- ==== Sys2Proof/Machine/DriveMap.lean ====
section
/-! DEFINITION. The drive mapper (44_drive_map.md R91 to R96). -/

namespace Sys2Proof.Machine

/-- `commit` in the three real cases (R95): drive A, then drive B, then standby, in one step. -/
def commitDrive (fa : Bool) (da : Byte) (fb : Bool) (db : Byte) (gate : Bool) (s : State) : State :=
  { emit (.drive .b fb db) (emit (.drive .a fa da) s) with
    motaFwd := fa
    motaDuty := da
    motbFwd := fb
    motbDuty := db
    standby := gate
    phase := .start }

/-- `commit` in the stop case (R95): no motor write, standby engaged. -/
def commitStop (s : State) : State := { s with standby := true, phase := .start }

/-- MAP.DRV (R91): motor A gets the right duty, motor B the left (R94). `range_in` is sampled here and nowhere else
(R92). The key's MODE bit is don't care (30_encoding.md R62). -/
def execMapDrv (_m : FrameMode) (s : State) : Host.Outcome State Fault Refusal :=
  .next (match directions s.flag0 s.flag1 with
    | some (fa, fb) =>
        commitDrive fa (rightDuty s.params.baseSpeed s.turnReg) fb (leftDuty s.params.baseSpeed s.turnReg)
          (rangeGate s.rangeIn) s
    | none => commitStop s)

end Sys2Proof.Machine
end

