-- ==== Sys2Proof/Machine/FrameSync.lean ====
section
/-! DEFINITION. The serial frame synchronizer (41_frame_sync.md R71 to R79), one definition an operation. -/

namespace Sys2Proof.Machine

/-- FS.TRIG (R71): transmit the trigger byte and begin receiving a frame. -/
def execFsTrig (s : State) : Host.Outcome State Fault Refusal :=
  .next { emit (.tx constants.triggerByte) s with cnt := 0, phase := .recv }

/-- The counter and phase after a stored fixed-width byte (R72). -/
def afterFixedByte (s : State) : State :=
  if s.cnt.toNat = constants.nFixed - 1 then { s with cnt := 0, phase := .decode }
  else { s with cnt := s.cnt + 1, phase := .recv }

/-- FS.FIXB (R72): store one received frame byte. -/
def execFsFixb (b : Byte) (s : State) : Host.Outcome State Fault Refusal :=
  thenNext (memWrite s.cnt.toNat b s) afterFixedByte

/-- FS.FIXF (R73): a frame byte failed to read. -/
def execFsFixf (s : State) : Host.Outcome State Fault Refusal := .next (faultAndAbandon .read s)

/-- FS.HUNT (R74): enter the sentinel hunt. -/
def execFsHunt (s : State) : Host.Outcome State Fault Refusal := .next { s with phase := .hunt }

/-- FS.SENT (R75): the sentinel arrived; it is not stored. -/
def execFsSent (s : State) : Host.Outcome State Fault Refusal :=
  .next { s with cnt := 0, frameErr := false, phase := .body }

/-- FS.SKIP (R76): the byte is discarded. -/
def execFsSkip (_b : Byte) (s : State) : Host.Outcome State Fault Refusal := .next { s with phase := .hunt }

/-- FS.HUNTF (R77): a byte failed to read during the hunt. -/
def execFsHuntf (s : State) : Host.Outcome State Fault Refusal := .next (faultAndAbandon .read s)

/-- The counter and phase after a stored body byte (R78). -/
def afterBodyByte (s : State) : State :=
  if s.cnt.toNat < constants.bodyLen - 1 then { s with cnt := s.cnt + 1, phase := .body }
  else if s.frameErr = false then { s with cnt := 0, phase := .decode }
  else abandon s

/-- FS.BODYB (R78): store one received body byte. -/
def execFsBodyb (b : Byte) (s : State) : Host.Outcome State Fault Refusal :=
  thenNext (memWrite s.cnt.toNat b s) afterBodyByte

/-- The counter, mark and phase after a substituted body byte (R79). -/
def afterFailedBodyByte (s : State) : State :=
  if s.cnt.toNat < constants.bodyLen - 1 then { s with cnt := s.cnt + 1, frameErr := true, phase := .body }
  else abandon s

/-- FS.BODYF (R79): a body byte failed to read; a zero byte stands in for it. -/
def execFsBodyf (s : State) : Host.Outcome State Fault Refusal :=
  thenNext (memWrite s.cnt.toNat 0 (raiseFault .read s)) afterFailedBodyByte

end Sys2Proof.Machine
end

