-- ==== Sys2Proof/Machine/Pid.lean ====
section
/-! DEFINITION. The PID controller (43_pid.md R84 to R87). -/

namespace Sys2Proof.Machine

/-- The writes of R84; every value is computed from the state before the step (00_scope.md R11). -/
def commitPid (s : State) : State :=
  { s with
    integral := integral32 s.errReg s.integral
    lastError := s.errReg
    turnReg := turn32 s.errReg s.integral s.lastError
    phase := .map }

/-- PID.STEP (R84; under ARITH_OVERFLOW = HALT, R86). The key's MODE bit is don't care (30_encoding.md R62). -/
def execPidStep (_m : FrameMode) (s : State) : Host.Outcome State Fault Refusal :=
  .next (match s.params.arithOverflow with
    | .wrap => commitPid s
    | .halt => if pidOverflows s.errReg s.integral s.lastError then halt s else commitPid s)

end Sys2Proof.Machine
end

