-- ==== Sys2Proof/Machine/Dispatch.lean ====
section
/-! DEFINITION. The meaning of every operation of the opcode map (30_encoding.md R62), one arm a constructor.
`exec` does not check that the phase, mode and event are the operation's: what selects an operation is the key the
sequencer forms (R61; DEDUCED, log 14; safe). -/

namespace Sys2Proof.Machine

def exec (i : Instr) (s : State) : Host.Outcome State Fault Refusal :=
  match i with
  -- the synchronizer, 41_frame_sync.md
  | .fsTrig => Sys2Proof.Machine.execFsTrig s
  | .fsHunt => Sys2Proof.Machine.execFsHunt s
  | .fsFixb b => Sys2Proof.Machine.execFsFixb b s
  | .fsFixf => Sys2Proof.Machine.execFsFixf s
  | .fsSent => Sys2Proof.Machine.execFsSent s
  | .fsSkip b => Sys2Proof.Machine.execFsSkip b s
  | .fsHuntf => Sys2Proof.Machine.execFsHuntf s
  | .fsBodyb b => Sys2Proof.Machine.execFsBodyb b s
  | .fsBodyf => Sys2Proof.Machine.execFsBodyf s
  -- the decoder, 42_decode.md
  | .decRaw => Sys2Proof.Machine.execDecRaw s
  | .decStr => Sys2Proof.Machine.execDecStr s
  -- the controller, 43_pid.md
  | .pidStep m => Sys2Proof.Machine.execPidStep m s
  -- the mapper, 44_drive_map.md
  | .mapDrv m => Sys2Proof.Machine.execMapDrv m s

end Sys2Proof.Machine
end

