-- ==== Sys2Proof/Machine/Ports.lean ====
section
/-! DEFINITION. The block's ports (10_state.md R33 to R38) as functions of the state. The input ports show the head of
the stimulus. A data port shows no value while its valid bit is 0 (DESIGN CHOICE, log 15; safe). -/

namespace Sys2Proof.Machine

/-! ## Inputs -/

/-- `RANGE n` takes effect at once and is not consumed as a channel event (30_encoding.md R66): the events from the
first one that is no RANGE line, and the level of `range_in` then. -/
def settleRange : List EnvEvent → Half → List EnvEvent × Half
  | .range n :: rest, _ => settleRange rest n
  | evs, r => (evs, r)

/-- What the environment offers in this step. -/
def offered (s : State) : Option EnvEvent := (settleRange s.stimulus s.rangeIn).1.head?

/-- `rst` (R33). -/
def rst (s : State) : Bool := offered s == some .reset

/-- `rx_valid` (R34). -/
def rxValid (s : State) : Bool :=
  match offered s with
  | some (.rxb _) => true
  | some .rxf => true
  | _ => false

/-- `rx_err` (R34). With `rx_valid` = 0 the spec gives it no level; the model shows 0 (DESIGN CHOICE, log 15; safe: no step
reads it then). -/
def rxErr (s : State) : Bool := offered s == some .rxf

/-- `rx_data` (R34); ignored with `rx_err` = 1. -/
def rxData (s : State) : Option Byte :=
  match offered s with
  | some (.rxb b) => some b
  | _ => none

/-- `tx_ready` (R35). -/
def txReady (s : State) : Bool := offered s == some .txa

/-- `range_in` (R36). -/
def rangeInput (s : State) : Half := (settleRange s.stimulus s.rangeIn).2

/-! ## Outputs -/

/-- `rx_ready = bool(phase ∈ {RECV, HUNT, BODY})` (R34). -/
def rxReady (s : State) : Bool :=
  match s.phase with
  | .recv => true
  | .hunt => true
  | .body => true
  | .start => false
  | .decode => false
  | .pid => false
  | .map => false
  | .halted => false

/-- `tx_valid = bool(FRAME_MODE = FIXED and phase = START)` (R35). -/
def txValid (s : State) : Bool := s.params.frameMode == .fixed && s.phase == .start

/-- `tx_data = 0x30` while `tx_valid = 1` (R35). -/
def txData (s : State) : Option Byte := if txValid s then some constants.triggerByte else none

/-- A receive transfer (R34). -/
def rxTransfer (s : State) : Bool := rxReady s && rxValid s

/-- A transmit transfer (R35). -/
def txTransfer (s : State) : Bool := txValid s && txReady s

/-- Whether an event is a `drive` of motor `m`. -/
def OutEvent.drives (m : Motor) : OutEvent → Bool
  | .drive n _ _ => m == n
  | .tx _ => false
  | .fault _ => false

/-- The stage of a fault report. -/
def OutEvent.stage? : OutEvent → Option Stage
  | .fault st => some st
  | .tx _ => none
  | .drive _ _ _ => none

/-- `mota_we` of the latest step (R37). -/
def motaWe (s : State) : Bool := s.stepEvents.any (OutEvent.drives .a)

/-- `motb_we` of the latest step (R37). -/
def motbWe (s : State) : Bool := s.stepEvents.any (OutEvent.drives .b)

/-- `fault_stage` of the latest step (R38), none while `fault_valid` = 0. -/
def faultStage (s : State) : Option (BitVec 2) := (s.stepEvents.findSome? OutEvent.stage?).map Stage.code

/-- `fault_valid` of the latest step (R38). -/
def faultValid (s : State) : Bool := (faultStage s).isSome

/-- The Motor Actuator's standby calls (R37, 60_exceptions.md R112). -/
inductive StandbyCall where
  | enableStandby
  | disableStandby
deriving DecidableEq, Repr

/-- The call a step's change of `standby` is (R37). -/
def standbyCall (before after : State) : Option StandbyCall :=
  match before.standby, after.standby with
  | false, true => some .enableStandby
  | true, false => some .disableStandby
  | _, _ => none

end Sys2Proof.Machine
end

