-- ==== Sys2Proof/Machine/Sequencer.lean ====
section
/-! DEFINITION. The cycle sequencer: key formation (30_encoding.md R61), the consumption of an event, `rst`
(70_reset_and_hazards.md R114, R115), waits (R120) and one step over them. `step` itself is Step.lean's. -/

namespace Sys2Proof.Machine

/-- The start of a step: the strobes of the last one fall, and leading RANGE lines take effect (R66; log 5). -/
def settle (s : State) : State :=
  { s with
    stimulus := (settleRange s.stimulus s.rangeIn).1
    rangeIn := (settleRange s.stimulus s.rangeIn).2
    stepEvents := [] }

/-- The key of a receive phase (R61): none without a receive transfer. -/
def receiveKey (s : State) : Option Key :=
  match offered s with
  | some (.rxb b) => some (makeKey s.params.frameMode s.phase .rxb b)
  | some .rxf => some (makeKey s.params.frameMode s.phase .rxf 0)
  | _ => none

/-- The key of an internal step (R61). -/
def internalKey (s : State) : Key := makeKey s.params.frameMode s.phase .none 0

/-- Key formation (R61): at most one key from `FRAME_MODE`, `phase` and the environment. -/
def formKey (s : State) : Option Key :=
  match s.phase with
  | .recv => receiveKey s
  | .hunt => receiveKey s
  | .body => receiveKey s
  | .start =>
    match s.params.frameMode with
    | .fixed => if txReady s then some (makeKey .fixed .start .txa 0) else none
    | .delimited => some (internalKey s)
  | .decode => some (internalKey s)
  | .pid => some (internalKey s)
  | .map => some (internalKey s)
  | .halted => none

/-- Whether the step takes the event at the head of the stimulus: a transfer (10_state.md R34, R35), or an idle step.
An event that is not accepted stays (70_reset_and_hazards.md R121). -/
def takes (s : State) : EnvEvent → Bool
  | .rxb _ => rxReady s
  | .rxf => rxReady s
  | .txa => txValid s
  | .idle => true
  | .range _ => false
  | .reset => false

/-- The state whose head event, if taken, is consumed. -/
def takeEvent (s : State) : State :=
  match s.stimulus with
  | [] => s
  | e :: rest => if takes s e then { s with stimulus := rest } else s

/-- One step with `rst` = 1 (R114, R115): every element takes its reset value and no event is emitted; the parameters,
the inputs not yet consumed and the trace of earlier outputs stay (log 12). -/
def applyReset (s : State) : State :=
  { State.resetWith s.params s.rangeIn with stimulus := s.stimulus.tail, trace := s.trace }

/-- A key that selects no operation, by R64's treatment. -/
def rejectKey (c : KeyReject) (s : State) : Host.Outcome State Fault Refusal :=
  match c.treatment with
  | .refuse => .refused (.noOperation c)
  | .stuck => .fault .halted
  | .noStep => .next s

/-- One step of a block that is not being reset: the formed key selects an operation (R61, R62). Without a key the
block waits: nothing changes but an idle event consumed (R120; DESIGN CHOICE, log 6; safe). In phase HALTED it is
stuck (60_exceptions.md R110; DESIGN CHOICE, log 7; safe). -/
def operate (s : State) : Host.Outcome State Fault Refusal :=
  if s.phase = .halted then .fault .halted
  else
    match formKey s with
    | none => .next (takeEvent s)
    | some k =>
      match decode k with
      | .ok i => exec i (takeEvent s)
      | .error c => rejectKey c (takeEvent s)

/-- One step from a settled state: `rst` first (R114), and before any `rst` the run is refused (R117; log 13). -/
def runSettled (s : State) : Host.Outcome State Fault Refusal :=
  if rst s then .next (applyReset s)
  else if s.resetDone then operate s
  else .refused .notReset

/-! ## Placing a key as the next one formed -/

/-- A stimulus from its first channel event or idle step on. -/
def dropControl : List EnvEvent → List EnvEvent
  | .range _ :: rest => dropControl rest
  | .reset :: rest => dropControl rest
  | evs => evs

/-- The stimulus under which the event of key `k` comes next. -/
def offerEvent (k : Key) (evs : List EnvEvent) : List EnvEvent :=
  match keyEv k with
  | .none => dropControl evs
  | .rxb => .rxb (keyData k) :: evs
  | .rxf => .rxf :: evs
  | .txa => .txa :: evs

/-- The state whose next formed key is `k` (R58): the mode, the phase and the event it carries (log 16). -/
def placeKey (k : Key) (s : State) : State :=
  { s with
    params := { s.params with frameMode := keyMode k }
    phase := keyPhase k
    stimulus := offerEvent k s.stimulus
    resetDone := true }

end Sys2Proof.Machine
end

