-- ==== Sys2Proof/Machine/Step.lean ====
section
/-! DEFINITION. One step of the machine (00_scope.md R5, R13), and the placing of an operation's key. -/

namespace Sys2Proof.Machine

/-- One step: one operation, one step of `rst`, or one step of waiting (R13). -/
def step (s : State) : Host.Outcome State Fault Refusal := runSettled (settle s)

/-- `s` with the key `w` as the next one the sequencer forms. The block stores no program: what selects its next
operation is FRAME_MODE, `phase` and the event offered (30_encoding.md R61), and these are what is set (log 16). -/
def State.withFetchWord (s : State) (nbits w : Nat) : State := placeKey (tableKey nbits w) s

end Sys2Proof.Machine
end

