-- ==== Sys2Proof/Machine/Stimulus.lean ====
section
/-! DEFINITION. A program of the block (30_encoding.md R66 to R68): its parameters and a stimulus, with R67's macros,
and the state in which it waits to run. -/

namespace Sys2Proof.Machine

/-- One line of a written stimulus: an event of R66 or R68, or a macro of R67. -/
inductive Line where
  | event (e : EnvEvent)
  /-- `FRAME5 a,b,c,d,e`: the poll and its reply. -/
  | frame5 (a b c d e : Byte)
  /-- `GARBAGE n, x`: requires `x` other than 0x7B. -/
  | garbage (n : Nat) (x : Byte)
  /-- `DFRAME` followed by 74 byte values. -/
  | dframe (body : List Byte)
  /-- `FILL n, x`. -/
  | fill (n : Nat) (x : Byte)
deriving DecidableEq, Repr

/-- The events a line stands for (R67); none where the macro's own requirement fails. -/
def Line.expand : Line → Option (List EnvEvent)
  | .event e => some [e]
  | .frame5 a b c d e => some [.txa, .rxb a, .rxb b, .rxb c, .rxb d, .rxb e]
  | .garbage n x => if x = 0x7B then none else some (List.replicate n (.rxb x))
  | .dframe body => if body.length = 74 then some (.rxb 0x7B :: body.map .rxb) else none
  | .fill n x => some (List.replicate n (.rxb x))

/-- The events of a whole stimulus. -/
def expandLines : List Line → Option (List EnvEvent)
  | [] => some []
  | l :: ls =>
    match l.expand, expandLines ls with
    | some es, some rest => some (es ++ rest)
    | _, _ => none

/-- A program: the `PARAMS` header and the stimulus (R66). -/
structure Program where
  params : Params
  lines  : List Line
deriving DecidableEq, Repr

/-- The block with a program's parameters and stimulus, before `rst` has been asserted: the program's own first line
is `RESET` (R68; 70_reset_and_hazards.md R117, R118). None where a macro's requirement fails. -/
def Program.load (p : Program) (range : Half) : Option State :=
  match expandLines p.lines with
  | some es => some (State.powerOn { State.resetWith p.params range with stimulus := es })
  | none => none

end Sys2Proof.Machine
end

