-- ==== Sys2Proof/Machine/Text.lean ====
section
/-! DEFINITION. The written forms of 30_encoding.md R65 to R67: operations, trace lines and stimulus lines.
Hexadecimal digits are written in capitals, as the spec's examples write them (DEDUCED, log 18; safe). -/

namespace Sys2Proof.Machine

def hexDigit (n : Nat) : Char := ['0', '1', '2', '3', '4', '5', '6', '7', '8', '9', 'A', 'B', 'C', 'D', 'E', 'F'].getD n '0'

/-- `n` in `digits` hexadecimal digits. -/
def hexDigits : Nat → Nat → List Char
  | 0, _ => []
  | digits + 1, n => hexDigits digits (n / 16) ++ [hexDigit (n % 16)]

/-- A hexadecimal literal, `0x..` (00_scope.md R9). -/
def hexText (digits n : Nat) : List Char := '0' :: 'x' :: hexDigits digits n

def byteText (b : Byte) : List Char := hexText 2 b.toNat

/-- The decimal digits of `n`, the last `fuel` of them where it has more. -/
def decimalDigits : Nat → Nat → List Char
  | 0, _ => []
  | fuel + 1, n => (if n / 10 = 0 then [] else decimalDigits fuel (n / 10)) ++ [hexDigit (n % 10)]

/-- A decimal literal (R9), of any size: R67 sets the counts of GARBAGE and FILL no bound. No number has more digits than
its value and one. -/
def decimalText (n : Nat) : List Char := decimalDigits (n + 1) n

/-- The mnemonic of R62. -/
def Op.mnemonic : Op → List Char
  | .fsTrig => "FS.TRIG".toList
  | .fsHunt => "FS.HUNT".toList
  | .fsFixb => "FS.FIXB".toList
  | .fsFixf => "FS.FIXF".toList
  | .fsSent => "FS.SENT".toList
  | .fsSkip => "FS.SKIP".toList
  | .fsHuntf => "FS.HUNTF".toList
  | .fsBodyb => "FS.BODYB".toList
  | .fsBodyf => "FS.BODYF".toList
  | .decRaw => "DEC.RAW".toList
  | .decStr => "DEC.STR".toList
  | .pidStep => "PID.STEP".toList
  | .mapDrv => "MAP.DRV".toList

/-- An operation as R65 writes it: the mnemonic, and the byte of the three operations that carry one. -/
def instrText (i : Instr) : List Char :=
  match i with
  | .fsFixb b => Op.mnemonic .fsFixb ++ ' ' :: byteText b
  | .fsSkip b => Op.mnemonic .fsSkip ++ ' ' :: byteText b
  | .fsBodyb b => Op.mnemonic .fsBodyb ++ ' ' :: byteText b
  | .fsTrig => Op.mnemonic .fsTrig
  | .fsHunt => Op.mnemonic .fsHunt
  | .fsFixf => Op.mnemonic .fsFixf
  | .fsSent => Op.mnemonic .fsSent
  | .fsHuntf => Op.mnemonic .fsHuntf
  | .fsBodyf => Op.mnemonic .fsBodyf
  | .decRaw => Op.mnemonic .decRaw
  | .decStr => Op.mnemonic .decStr
  | .pidStep _ => Op.mnemonic .pidStep
  | .mapDrv _ => Op.mnemonic .mapDrv

/-- A trace line with its key (R65): the operation, then `; K=0x....`. R65 shows no whole line; that one blank stands before
the semicolon is the model's choice (DESIGN CHOICE, log 21; safe). -/
def traceLineText (i : Instr) : List Char := instrText i ++ " ; K=".toList ++ hexText 4 (encode i).toNat

/-- A stimulus line (R66, R68). The model's own idle step has no line in R66; it is written `IDLE` (log 5). -/
def eventText : EnvEvent → List Char
  | .txa => "TXA".toList
  | .rxb b => "RXB ".toList ++ byteText b
  | .rxf => "RXF".toList
  | .range n => "RANGE ".toList ++ decimalText n.toNat
  | .reset => "RESET".toList
  | .idle => "IDLE".toList

/-- Bytes separated by commas, as R67 writes the five of FRAME5. That the 74 of DFRAME, for which R67 gives no separator,
are written so too, after one blank on the macro's own line, is the model's choice (DESIGN CHOICE, log 20; safe). -/
def bytesText : List Byte → List Char
  | [] => []
  | [b] => byteText b
  | b :: bs => byteText b ++ ',' :: bytesText bs

/-- A stimulus line or macro (R66, R67). -/
def lineText : Line → List Char
  | .event e => eventText e
  | .frame5 a b c d e => "FRAME5 ".toList ++ bytesText [a, b, c, d, e]
  | .garbage n x => "GARBAGE ".toList ++ decimalText n ++ ", ".toList ++ byteText x
  | .dframe body => "DFRAME ".toList ++ bytesText body
  | .fill n x => "FILL ".toList ++ decimalText n ++ ", ".toList ++ byteText x

/-- The `PARAMS` header line (R66). -/
def paramsText (p : Params) : List Char :=
  "PARAMS FRAME_MODE=".toList ++ (match p.frameMode with | .fixed => "FIXED".toList | .delimited => "DELIMITED".toList)
    ++ ", BASE_SPEED=".toList ++ decimalText p.baseSpeed.toNat
    ++ ", FAULT_STANDBY=".toList ++ (match p.faultStandby with | .assert => "ASSERT".toList | .hold => "HOLD".toList)
    ++ ", ARITH_OVERFLOW=".toList ++ (match p.arithOverflow with | .wrap => "WRAP".toList | .halt => "HALT".toList)

/-- A program as R66 writes it, one line a list entry. -/
def programText (p : Program) : List (List Char) := paramsText p.params :: p.lines.map lineText

end Sys2Proof.Machine
end

