-- ==== Sys2Proof/Safety.lean ====
section
/-! DEFINITION. What claims about runs are stated in: the reachability invariant (10_state.md R22, R23, R26, R27), the
states a run reaches (70_reset_and_hazards.md R117), and the part of a state that later behaviour can depend on
(R19 to R21, 20_memory.md R43). -/

namespace Sys2Proof.Machine

/-- The phases legal in a mode (10_state.md R25, R26). -/
def phaseLegal : FrameMode → Phase → Bool
  | .fixed, .start => true
  | .fixed, .recv => true
  | .fixed, .hunt => false
  | .fixed, .body => false
  | .fixed, .decode => true
  | .fixed, .pid => true
  | .fixed, .map => true
  | .fixed, .halted => true
  | .delimited, .start => true
  | .delimited, .recv => false
  | .delimited, .hunt => true
  | .delimited, .body => true
  | .delimited, .decode => true
  | .delimited, .pid => true
  | .delimited, .map => true
  | .delimited, .halted => true

/-- The reachability invariant: R26 with R22, R23, R25 (HALTED only under HALT), R27, and the canonical form of `buf`
(R41; log 11). -/
structure Inv (s : State) : Prop where
  phase_legal : phaseLegal s.params.frameMode s.phase = true
  halted_only_under_halt : s.phase = .halted → s.params.arithOverflow = .halt
  recv_count : s.phase = .recv → s.cnt.toNat ≤ 4
  body_count : s.phase = .body → s.cnt.toNat ≤ 73
  other_count : s.phase ≠ .recv → s.phase ≠ .body → s.cnt = 0
  mark_only_in_body : s.phase ≠ .body → s.frameErr = false
  duty_a : s.motaDuty.toNat ≤ 100
  duty_b : s.motbDuty.toNat ≤ 100
  buf_wf : Memory.wf s.buf = true

/-- The states of the runs the spec speaks of: every run starts from reset (R117), with any parameters, any inputs and
any coming events (R123). -/
inductive Reachable : State → Prop where
  | reset (p : Params) (r : Half) (evs : List EnvEvent) :
      Reachable { State.resetWith p r with stimulus := evs }
  | step (s t : State) : Reachable s → step s = .next t → Reachable t

/-- Whether buffer byte `k` can still be read in the current cycle (20_memory.md R43). -/
def byteLive (s : State) (k : Nat) : Bool :=
  match s.phase with
  | .recv => decide (k < s.cnt.toNat)
  | .body => decide (k < s.cnt.toNat)
  | .decode => decide (k < (match s.params.frameMode with | .fixed => 5 | .delimited => 74))
  | .start => false
  | .hunt => false
  | .pid => false
  | .map => false
  | .halted => false

/-- Two states that differ only in what the rest of the run cannot read: a latch that is written before it is read
(10_state.md R19 to R21) and a buffer byte that is stored before a decode reads it (R43). -/
structure LiveAgree (s t : State) : Prop where
  params : s.params = t.params
  integral : s.integral = t.integral
  lastError : s.lastError = t.lastError
  cnt : s.cnt = t.cnt
  frameErr : s.frameErr = t.frameErr
  phase : s.phase = t.phase
  motaFwd : s.motaFwd = t.motaFwd
  motaDuty : s.motaDuty = t.motaDuty
  motbFwd : s.motbFwd = t.motbFwd
  motbDuty : s.motbDuty = t.motbDuty
  standby : s.standby = t.standby
  stimulus : s.stimulus = t.stimulus
  rangeIn : s.rangeIn = t.rangeIn
  resetDone : s.resetDone = t.resetDone
  stepEvents : s.stepEvents = t.stepEvents
  trace : s.trace = t.trace
  errReg : s.phase = .pid → s.errReg = t.errReg
  flag0 : s.phase = .pid ∨ s.phase = .map → s.flag0 = t.flag0
  flag1 : s.phase = .pid ∨ s.phase = .map → s.flag1 = t.flag1
  turnReg : s.phase = .map → s.turnReg = t.turnReg
  buf : ∀ k, byteLive s k = true → Memory.read s.buf k = Memory.read t.buf k

end Sys2Proof.Machine
end

