-- ==== Sys2Proof/Certificates/Slice0/Obligations.lean ====
section
/-! DEFINITION. The statements for the provers, one `def Obligations.<Name> : Prop` each, and the words they are stated
in. Every docstring names the rule of spec/ it formalises, and says where a clause rests on a log entry. -/

namespace Sys2Proof.Claims

open Sys2Proof.Machine

/-- `wrap32` as 00_scope.md R10 writes it, on integers: the value of the `i32` congruent to `z`. -/
def wrapInt (z : Int) : Int := (z + 2 ^ 31) % 2 ^ 32 - 2 ^ 31

/-- The exact raw error of 42_decode.md R80, written out. -/
def rawSum (b0 b1 b2 b3 b4 : Byte) : Int :=
  5 * (b0.toNat : Int) + 10 * b1.toNat + 15 * b2.toNat + 20 * b3.toNat + 25 * b4.toNat - 15

/-- The output events of a step are `evs`, in order (10_state.md R39). -/
def Emits (s t : State) (evs : List OutEvent) : Prop :=
  t.stepEvents = s.stepEvents ++ evs ∧ t.trace = s.trace ++ evs

/-- ControlState is unchanged (10_state.md R18). -/
def SameControl (s t : State) : Prop := t.integral = s.integral ∧ t.lastError = s.lastError

/-- The stage latches are unchanged (R19 to R21). -/
def SameLatches (s t : State) : Prop :=
  t.errReg = s.errReg ∧ t.flag0 = s.flag0 ∧ t.flag1 = s.flag1 ∧ t.turnReg = s.turnReg

/-- The motor command registers are unchanged (R27). -/
def SameMotors (s t : State) : Prop :=
  t.motaFwd = s.motaFwd ∧ t.motaDuty = s.motaDuty ∧ t.motbFwd = s.motbFwd ∧ t.motbDuty = s.motbDuty

/-- Every byte of the payload buffer reads as before (20_memory.md R41). -/
def SameBuffer (s t : State) : Prop := ∀ k, Memory.read t.buf k = Memory.read s.buf k

/-- Byte `k` of the buffer is now `b` and every other byte reads as before. -/
def StoresByte (s t : State) (k : Nat) (b : Byte) : Prop :=
  Memory.read t.buf k = b ∧ ∀ j, j ≠ k → Memory.read t.buf j = Memory.read s.buf j

/-- The model's own fields but the event record are unchanged: parameters, inputs, `resetDone`. -/
def SameEnvironment (s t : State) : Prop :=
  t.params = s.params ∧ t.stimulus = s.stimulus ∧ t.rangeIn = s.rangeIn ∧ t.resetDone = s.resetDone

/-- What a fault report does to `standby` (60_exceptions.md R102). -/
def StandbyOfFault (s t : State) : Prop :=
  t.standby = (if s.params.faultStandby = .assert then true else s.standby)

/-- The cycle is abandoned (R104): START, counter and mark cleared. -/
def Abandoned (t : State) : Prop := t.phase = .start ∧ t.cnt = 0 ∧ t.frameErr = false

/-- The events a transfer can carry. -/
def isChannelEvent : EnvEvent → Bool
  | .txa => true
  | .rxb _ => true
  | .rxf => true
  | .range _ => false
  | .reset => false
  | .idle => false

/-- The events of a receive transfer. -/
def isReceiveEvent : EnvEvent → Bool
  | .rxb _ => true
  | .rxf => true
  | .txa => false
  | .range _ => false
  | .reset => false
  | .idle => false

/-- The stimulus from its first line that is no RANGE line (30_encoding.md R66). -/
def pending (s : State) : List EnvEvent := (settleRange s.stimulus s.rangeIn).1

/-- The stimulus after a step that makes no transfer: an idle step at its head is over. -/
def afterIdle (evs : List EnvEvent) : List EnvEvent := if evs.head? = some .idle then evs.tail else evs

/-- The stimulus and the level of `range_in` after `n` steps that make no transfer: RANGE lines take effect and idle steps
pass (log 5). None where one of the steps is a reset. -/
def afterInternalSteps : Nat → List EnvEvent → Half → Option (List EnvEvent × Half)
  | 0, evs, r => some (evs, r)
  | n + 1, evs, r =>
    if (settleRange evs r).1.head? = some .reset then none
    else afterInternalSteps n (afterIdle (settleRange evs r).1) (settleRange evs r).2

/-- The operation the "selects when" column of 30_encoding.md R62 gives a phase, a mode and the event offered. -/
def selectedOp (s : State) : Option Instr :=
  match s.phase, s.params.frameMode with
  | .start, .fixed => if offered s = some .txa then some .fsTrig else none
  | .start, .delimited => some .fsHunt
  | .recv, _ =>
    match offered s with
    | some (.rxb b) => some (.fsFixb b)
    | some .rxf => some .fsFixf
    | _ => none
  | .hunt, _ =>
    match offered s with
    | some (.rxb b) => some (if b = 0x7B then .fsSent else .fsSkip b)
    | some .rxf => some .fsHuntf
    | _ => none
  | .body, _ =>
    match offered s with
    | some (.rxb b) => some (.fsBodyb b)
    | some .rxf => some .fsBodyf
    | _ => none
  | .decode, .fixed => some .decRaw
  | .decode, .delimited => some .decStr
  | .pid, m => some (.pidStep m)
  | .map, m => some (.mapDrv m)
  | .halted, _ => none

/-- The directions of the `drive` events in a list. -/
def driveDirections : List OutEvent → List (Motor × Bool)
  | [] => []
  | .drive m fwd _ :: evs => (m, fwd) :: driveDirections evs
  | .tx _ :: evs => driveDirections evs
  | .fault _ :: evs => driveDirections evs

/-- The errors of the cycles that reach PID.STEP in the first `n` steps, in order (43_pid.md R88). Under HALT the last of
them may be one that PID.STEP halted on. -/
def pidErrors : Nat → State → List Word
  | 0, _ => []
  | n + 1, s =>
    (if s.phase = .pid then [s.errReg] else []) ++
      (match step s with
        | .next t => pidErrors n t
        | .fault _ => []
        | .refused _ => [])

/-- The sum of a list of errors, exact. -/
def errorSum (es : List Word) : Int := (es.map BitVec.toInt).sum

/-- Every exact value of 43_pid.md R86 fits `i32`. -/
def PidFits (e integral last : Int) : Prop :=
  ∀ z ∈ [e - last, integral + e, 5 * e, 5 * e + (integral + e), 10 * (e - last), 5 * e + (integral + e) + 10 * (e - last)],
    -2147483648 ≤ z ∧ z ≤ 2147483647

/-- What a structured decode with decoder `dec` does (42_decode.md R81): a Decode fault and abandonment, or the latches
and phase PID. -/
def StructuredDecode (dec : StructDecode) (s : State) (o : Host.Outcome State Fault Refusal) : Prop :=
  ∃ t, o = .next t ∧ SameControl s t ∧ t.turnReg = s.turnReg ∧ SameMotors s t ∧ SameBuffer s t ∧
    SameEnvironment s t ∧
    (match dec (fun k => Memory.read s.buf k.val) with
      | none => Emits s t [.fault .decode] ∧ StandbyOfFault s t ∧ Abandoned t ∧ SameLatches s t
      | some r => Emits s t [] ∧ t.standby = s.standby ∧ t.phase = .pid ∧ t.cnt = s.cnt ∧ t.frameErr = s.frameErr ∧
          t.errReg = r.error ∧ t.flag0 = r.flag0 ∧ t.flag1 = r.flag1)

end Sys2Proof.Claims

open Sys2Proof Sys2Proof.Machine Sys2Proof.Claims

/-! ## The operation key -/

/-- Decoding an encoded well-formed instruction gives it back, whatever its operand (30_encoding.md R58, R60, R62). -/
def Obligations.DecodeOfEncodeIsTheInstruction : Prop :=
  ∀ i : Instr, i.wellFormed = true → decode (encode i) = .ok i

/-- Every key that decodes is the encoding of the well-formed instruction it decodes to (R62). -/
def Obligations.EncodeOfDecodeIsTheKey : Prop :=
  ∀ (k : Key) (i : Instr), decode k = .ok i → i.wellFormed = true ∧ encode i = k

/-- The keys that select no operation are exactly those of R64's classes, and a rejected key is in the class it is named
by. Which of two overlapping classes names a key is the model's choice (log 9). -/
def Obligations.KeysWithoutOperationAreTheSixClasses : Prop :=
  ∀ k : Key, ((∀ i, decode k ≠ .ok i) ↔ ∃ c : KeyReject, c.holds k = true) ∧
    ∀ c, decode k = .error c → c.holds k = true

/-- R63: 0xA47B matches FS.SENT's row and FS.SKIP's and is FS.SENT's, whose mask has more bits; FS.SKIP selects the keys
0xA400 to 0xA4FF but that one; no other two rows overlap. -/
def Obligations.OnlySentAndSkipOverlap : Prop :=
  (∃ r₅ ∈ rows, ∃ r₆ ∈ rows, r₅.op = .fsSent ∧ r₆.op = .fsSkip ∧ r₅.accepts 0xA47B = true ∧ r₆.accepts 0xA47B = true ∧
    maskBits r₆.mask < maskBits r₅.mask) ∧
  decode 0xA47B = .ok .fsSent ∧
  (∀ k : Key, (∃ b, decode k = .ok (.fsSkip b)) ↔ (0xA400 ≤ k.toNat ∧ k.toNat ≤ 0xA4FF ∧ k ≠ 0xA47B)) ∧
  (∀ r ∈ rows, ∀ r' ∈ rows, r.op ≠ r'.op → (∃ k, r.accepts k = true ∧ r'.accepts k = true) →
    (r.op = .fsSent ∧ r'.op = .fsSkip) ∨ (r.op = .fsSkip ∧ r'.op = .fsSent))

/-- Keys written out from R62 and the traces of 95_test_vectors.md decode to their operations. -/
def Obligations.SpecKeysDecodeAsWritten : Prop :=
  decode 0x0C00 = .ok .fsTrig ∧ decode 0x8000 = .ok .fsHunt ∧ decode 0x1430 = .ok (.fsFixb 0x30) ∧
  decode 0x1800 = .ok .fsFixf ∧ decode 0xA47B = .ok .fsSent ∧ decode 0xA441 = .ok (.fsSkip 0x41) ∧
  decode 0xA800 = .ok .fsHuntf ∧ decode 0xB47B = .ok (.fsBodyb 0x7B) ∧ decode 0xB800 = .ok .fsBodyf ∧
  decode 0x4000 = .ok .decRaw ∧ decode 0xC000 = .ok .decStr ∧ decode 0x5000 = .ok (.pidStep .fixed) ∧
  decode 0xD000 = .ok (.pidStep .delimited) ∧ decode 0x6000 = .ok (.mapDrv .fixed) ∧
  decode 0xE000 = .ok (.mapDrv .delimited)

/-- Key formation and the opcode map together select what the "selects when" column says, in every phase the mode has
(R61, R62): the formed key always decodes, and without a selected operation no key is formed. -/
def Obligations.FormedKeysSelectTheNamedOperation : Prop :=
  ∀ s : State, phaseLegal s.params.frameMode s.phase = true →
    (formKey s).map decode = (selectedOp s).map Except.ok

/-- Two operations written alike (R65) are the same, but for the MODE bit that R65 does not write. -/
def Obligations.WrittenOperationsAreUnambiguous : Prop :=
  ∀ i j : Instr, instrText i = instrText j →
    i = j ∨ (∃ m m', i = .pidStep m ∧ j = .pidStep m') ∨ (∃ m m', i = .mapDrv m ∧ j = .mapDrv m')

/-- The macros of R67: their expansions, and the one requirement each of GARBAGE and DFRAME makes. -/
def Obligations.MacrosExpandToTheirEvents : Prop :=
  (∀ a b c d e, (Line.frame5 a b c d e).expand = some [.txa, .rxb a, .rxb b, .rxb c, .rxb d, .rxb e]) ∧
  (∀ n x es, (Line.garbage n x).expand = some es ↔ x ≠ 0x7B ∧ es = List.replicate n (.rxb x)) ∧
  (∀ body es, (Line.dframe body).expand = some es ↔ body.length = 74 ∧ es = .rxb 0x7B :: body.map .rxb) ∧
  (∀ n x, (Line.fill n x).expand = some (List.replicate n (.rxb x)))

/-! ## One step -/

/-- A step whose formed key decodes to `i` is `exec i` of the state with its registers as they are, the event of the key
taken (an idle step over, where the key carries none), leading RANGE lines in effect and no event recorded yet
(00_scope.md R5, 30_encoding.md R61; the placing of RANGE and idle steps is the model's, log 5). -/
def Obligations.StepRunsTheDecodedInstruction : Prop :=
  ∀ (s : State) (k : Key) (i : Instr), offered s ≠ some .reset → s.resetDone = true → formKey s = some k →
    decode k = .ok i →
    step s = exec i { s with
      stimulus := if keyEv k = .none then afterIdle (pending s) else (pending s).tail
      rangeIn := rangeInput s
      stepEvents := [] }

/-- A wait changes no register and emits nothing (70_reset_and_hazards.md R120); that a wait is a step is the model's
choice (log 6). -/
def Obligations.WaitChangesNoRegister : Prop :=
  ∀ s : State, offered s ≠ some .reset → s.resetDone = true → s.phase ≠ .halted → formKey s = none →
    step s = .next { s with stimulus := afterIdle (pending s), rangeIn := rangeInput s, stepEvents := [] }

/-- The block waits exactly for a receive or a transmit transfer (R120), or is halted. -/
def Obligations.WaitsAreExactlyTheBlockedTransfers : Prop :=
  ∀ s : State, formKey s = none ↔
    s.phase = .halted ∨ ((s.phase = .recv ∨ s.phase = .hunt ∨ s.phase = .body) ∧ rxTransfer s = false) ∨
    (s.phase = .start ∧ s.params.frameMode = .fixed ∧ txTransfer s = false)

/-- A halted block never steps again until reset, whatever is offered, and only `rst` leaves HALTED (60_exceptions.md
R110); that the step then answers the fault `halted` is the model's choice (log 7). -/
def Obligations.HaltedIsStuckUntilReset : Prop :=
  ∀ s : State, s.phase = .halted → s.resetDone = true →
    (offered s ≠ some .reset → step s = .fault .halted) ∧
    (offered s = some .reset → ∃ t, step s = .next t ∧ t.phase = .start)

/-- R114: with `rst` = 1, in any phase and before or after any other reset, every element takes its reset value of R40, no
event is emitted, and the parameters are those configured; the events not consumed stay (R115). Three clauses are the
model's own choice: that a RESET line is one step and is consumed by it (log 5), that the trace of earlier steps stays
(log 12), and the flag `resetDone` (log 13). -/
def Obligations.ResetStepGivesEveryResetValue : Prop :=
  ∀ s : State, offered s = some .reset → ∃ t, step s = .next t ∧
    t.integral = 0 ∧ t.lastError = 0 ∧ t.errReg = 0 ∧ t.flag0 = false ∧ t.flag1 = false ∧ t.turnReg = 0 ∧
    (∀ k, Memory.read t.buf k = 0) ∧ t.cnt = 0 ∧ t.frameErr = false ∧ t.phase = .start ∧
    t.motaFwd = true ∧ t.motaDuty = 0 ∧ t.motbFwd = true ∧ t.motbDuty = 0 ∧ t.standby = true ∧
    t.stepEvents = [] ∧ t.trace = s.trace ∧ t.params = s.params ∧ t.stimulus = (pending s).tail ∧ t.resetDone = true

/-- R40: the reset value of every element and strobe, for every configuration, the block that `State.reset` is among
them. That `State.reset` has R6's defaults for FAULT_STANDBY and ARITH_OVERFLOW is the model's choice (log 2). -/
def Obligations.ResetStateHoldsTheSpecsValues : Prop :=
  (∀ (p : Params) (r : Half), ∀ s, s = State.resetWith p r →
    s.integral = 0 ∧ s.lastError = 0 ∧ s.errReg = 0 ∧ s.flag0 = false ∧ s.flag1 = false ∧ s.turnReg = 0 ∧
    (∀ k, Memory.read s.buf k = 0) ∧ s.cnt = 0 ∧ s.frameErr = false ∧ s.phase = .start ∧
    s.motaFwd = true ∧ s.motbFwd = true ∧ s.motaDuty = 0 ∧ s.motbDuty = 0 ∧ s.standby = true ∧
    motaWe s = false ∧ motbWe s = false ∧ faultValid s = false) ∧
  (∃ p r, State.reset = State.resetWith p r ∧ p.faultStandby = .assert ∧ p.arithOverflow = .wrap)

/-- A run that does not start from reset is refused (70_reset_and_hazards.md R117), whatever the contents; the flag
`resetDone` that says so is the model's (log 13). -/
def Obligations.BeforeResetEveryStepIsRefused : Prop :=
  ∀ s : State, offered s ≠ some .reset → step (State.powerOn s) = .refused .notReset

/-- A RANGE line at the head of the stimulus takes effect at once and costs no step (30_encoding.md R66; that it does so
before pending internal steps is the model's reading, log 5). -/
def Obligations.RangeLineTakesEffectAtOnce : Prop :=
  ∀ (s : State) (n : Half) (rest : List EnvEvent), s.stimulus = .range n :: rest →
    step s = step { s with stimulus := rest, rangeIn := n }

/-! ## The synchronizer -/

/-- FS.TRIG (41_frame_sync.md R71) completes in every state: it transmits 0x30, clears the counter, goes to RECV and
changes nothing else. -/
def Obligations.FsTrigTransmitsTheTrigger : Prop :=
  ∀ s : State, ∃ t, exec .fsTrig s = .next t ∧ Emits s t [.tx 0x30] ∧ t.cnt = 0 ∧ t.phase = .recv ∧
    t.frameErr = s.frameErr ∧ t.standby = s.standby ∧ SameControl s t ∧ SameLatches s t ∧ SameMotors s t ∧
    SameBuffer s t ∧ SameEnvironment s t

/-- FS.FIXB (R72) stores the byte at index `cnt` and only there; the fifth byte ends the frame. An index the buffer does
not have stops it (20_memory.md R41, log 10). -/
def Obligations.FsFixbStoresTheFrameByte : Prop :=
  ∀ (b : Byte) (s : State),
    (Memory.wf s.buf = true → s.cnt.toNat < 74 → ∃ t, exec (.fsFixb b) s = .next t ∧
      StoresByte s t s.cnt.toNat b ∧
      (s.cnt = 4 → t.cnt = 0 ∧ t.phase = .decode) ∧
      (s.cnt ≠ 4 → t.cnt.toNat = s.cnt.toNat + 1 ∧ t.phase = .recv) ∧
      Emits s t [] ∧ t.frameErr = s.frameErr ∧ t.standby = s.standby ∧ SameControl s t ∧ SameLatches s t ∧
      SameMotors s t ∧ SameEnvironment s t) ∧
    (74 ≤ s.cnt.toNat → exec (.fsFixb b) s = .fault .noSuchByte)

/-- FS.FIXF (R73) and FS.HUNTF (R77) complete in every state: one Read report, the cycle abandoned, nothing else changed
but `standby` as R102 says. -/
def Obligations.ReadFailureAbandonsAtOnce : Prop :=
  ∀ (i : Instr) (s : State), i = .fsFixf ∨ i = .fsHuntf → ∃ t, exec i s = .next t ∧
    Emits s t [.fault .read] ∧ Abandoned t ∧ StandbyOfFault s t ∧ SameControl s t ∧ SameLatches s t ∧ SameMotors s t ∧
    SameBuffer s t ∧ SameEnvironment s t

/-- FS.HUNT (R74), FS.SKIP (R76) and FS.SENT (R75) complete in every state and emit nothing. FS.HUNT and FS.SKIP write
the phase only; FS.SENT also clears the counter and the mark. -/
def Obligations.HuntSkipAndSentMoveThePhase : Prop :=
  (∀ (i : Instr) (s : State), i = .fsHunt ∨ (∃ b, i = .fsSkip b) → ∃ t, exec i s = .next t ∧ t.phase = .hunt ∧
    t.cnt = s.cnt ∧ t.frameErr = s.frameErr ∧ Emits s t [] ∧ t.standby = s.standby ∧ SameControl s t ∧
    SameLatches s t ∧ SameMotors s t ∧ SameBuffer s t ∧ SameEnvironment s t) ∧
  (∀ s : State, ∃ t, exec .fsSent s = .next t ∧ t.phase = .body ∧ t.cnt = 0 ∧ t.frameErr = false ∧ Emits s t [] ∧
    t.standby = s.standby ∧ SameControl s t ∧ SameLatches s t ∧ SameMotors s t ∧ SameBuffer s t ∧ SameEnvironment s t)

/-- FS.BODYB (R78) stores the byte at index `cnt` and only there; byte 73 ends the frame, in DECODE or, with a failed
byte before it, abandoned without a further report. Past index 73 it stops (log 10). -/
def Obligations.FsBodybStoresTheBodyByte : Prop :=
  ∀ (b : Byte) (s : State),
    (Memory.wf s.buf = true → s.cnt.toNat < 74 → ∃ t, exec (.fsBodyb b) s = .next t ∧
      StoresByte s t s.cnt.toNat b ∧
      (s.cnt.toNat < 73 → t.cnt.toNat = s.cnt.toNat + 1 ∧ t.phase = .body ∧ t.frameErr = s.frameErr) ∧
      (s.cnt.toNat = 73 → s.frameErr = false → t.cnt = 0 ∧ t.phase = .decode ∧ t.frameErr = false) ∧
      (s.cnt.toNat = 73 → s.frameErr = true → Abandoned t) ∧
      Emits s t [] ∧ t.standby = s.standby ∧ SameControl s t ∧ SameLatches s t ∧ SameMotors s t ∧
      SameEnvironment s t) ∧
    (74 ≤ s.cnt.toNat → exec (.fsBodyb b) s = .fault .noSuchByte)

/-- FS.BODYF (R79): one Read report, a zero byte at index `cnt` and only there, the mark set, and at byte 73 the cycle
abandoned. Past index 73 it stops (log 10). -/
def Obligations.FsBodyfSubstitutesAZero : Prop :=
  ∀ s : State,
    (Memory.wf s.buf = true → s.cnt.toNat < 74 → ∃ t, exec .fsBodyf s = .next t ∧
      StoresByte s t s.cnt.toNat 0 ∧
      (s.cnt.toNat < 73 → t.cnt.toNat = s.cnt.toNat + 1 ∧ t.phase = .body ∧ t.frameErr = true) ∧
      (s.cnt.toNat = 73 → Abandoned t) ∧
      Emits s t [.fault .read] ∧ StandbyOfFault s t ∧ SameControl s t ∧ SameLatches s t ∧ SameMotors s t ∧
      SameEnvironment s t) ∧
    (74 ≤ s.cnt.toNat → exec .fsBodyf s = .fault .noSuchByte)

/-! ## The decoder -/

/-- DEC.RAW (42_decode.md R80) completes in every state: the exact weighted sum, the two marker flags, phase PID, and
nothing else. -/
def Obligations.DecRawWeighsTheFiveBytes : Prop :=
  ∀ s : State, ∃ t, exec .decRaw s = .next t ∧
    t.errReg.toInt = rawSum (Memory.read s.buf 0) (Memory.read s.buf 1) (Memory.read s.buf 2) (Memory.read s.buf 3)
      (Memory.read s.buf 4) ∧
    (t.flag0 = true ↔ (Memory.read s.buf 0).toNat = 48) ∧ (t.flag1 = true ↔ (Memory.read s.buf 1).toNat = 48) ∧
    t.phase = .pid ∧ Emits s t [] ∧ t.cnt = s.cnt ∧ t.frameErr = s.frameErr ∧ t.standby = s.standby ∧
    t.turnReg = s.turnReg ∧ SameControl s t ∧ SameMotors s t ∧ SameBuffer s t ∧ SameEnvironment s t

/-- The bounds of the raw error, for every frame: R83, which the spec marks as its own inference from R80. -/
def Obligations.RawErrorStaysInItsRange : Prop :=
  ∀ s t : State, exec .decRaw s = .next t →
    -15 ≤ t.errReg.toInt ∧ t.errReg.toInt ≤ 19110 ∧ t.errReg.toInt % 5 = 0 ∧
    (t.flag0 = true → 225 ≤ t.errReg.toInt) ∧ (t.flag1 = true → 465 ≤ t.errReg.toInt) ∧
    (t.flag0 = true → t.flag1 = true → 705 ≤ t.errReg.toInt ∧ t.errReg.toInt ≤ 16005)

/-- DEC.STR (R81) completes in every state, for the block's own STRUCT_DECODE and for every other one. -/
def Obligations.DecStrCommitsOrAbandons : Prop :=
  (∀ s : State, StructuredDecode Config.structDecode s (exec .decStr s)) ∧
  (∀ (dec : StructDecode) (s : State), StructuredDecode dec s (execDecStrWith dec s))

/-- R82: neither decode operation writes `integral`, `last_error`, `turn_reg`, the motor registers or the buffer; a
failed one writes no latch, and has no effect but the report, its `standby` effect and the abandonment. -/
def Obligations.DecodeIsPure : Prop :=
  (∀ (i : Instr) (s t : State), i = .decRaw ∨ i = .decStr → exec i s = .next t →
    SameControl s t ∧ t.turnReg = s.turnReg ∧ SameMotors s t ∧ t.buf = s.buf) ∧
  (∀ (dec : StructDecode) (s t : State), dec (frameBody s) = none → execDecStrWith dec s = .next t →
    t = { s with
      phase := .start, cnt := 0, frameErr := false,
      standby := if s.params.faultStandby = .assert then true else s.standby,
      stepEvents := s.stepEvents ++ [.fault .decode], trace := s.trace ++ [.fault .decode] })

/-! ## The controller -/

/-- PID.STEP under WRAP (43_pid.md R84, R89) completes in every state and either mode bit: the wrapped integral, the new
last error, the turn from the new integral and the old last error, phase MAP, and nothing else. -/
def Obligations.PidStepWraps : Prop :=
  ∀ (m : FrameMode) (s : State), s.params.arithOverflow = .wrap → ∃ t, exec (.pidStep m) s = .next t ∧
    t.integral.toInt = wrapInt (s.integral.toInt + s.errReg.toInt) ∧
    t.lastError = s.errReg ∧
    t.turnReg.toInt = wrapInt (5 * s.errReg.toInt + 1 * t.integral.toInt +
      10 * wrapInt (s.errReg.toInt - s.lastError.toInt)) ∧
    t.phase = .map ∧ t.errReg = s.errReg ∧ t.flag0 = s.flag0 ∧ t.flag1 = s.flag1 ∧ t.cnt = s.cnt ∧
    t.frameErr = s.frameErr ∧ t.standby = s.standby ∧ Emits s t [] ∧ SameMotors s t ∧ SameBuffer s t ∧
    SameEnvironment s t

/-- PID.STEP under HALT (R86): with every exact value in range it gives the exact results of R84; with any out of range
it halts, writes nothing else and emits nothing. -/
def Obligations.PidStepHaltsOnOverflow : Prop :=
  ∀ (m : FrameMode) (s : State) (d i p q r u : Int), s.params.arithOverflow = .halt →
    d = s.errReg.toInt - s.lastError.toInt → i = s.integral.toInt + s.errReg.toInt → p = 5 * s.errReg.toInt →
    q = p + i → r = 10 * d → u = q + r →
    ((∀ z ∈ [d, i, p, q, r, u], -2147483648 ≤ z ∧ z ≤ 2147483647) →
      ∃ t, exec (.pidStep m) s = .next t ∧ t.integral.toInt = i ∧ t.lastError = s.errReg ∧ t.turnReg.toInt = u ∧
        t.phase = .map ∧ t.errReg = s.errReg ∧ t.flag0 = s.flag0 ∧ t.flag1 = s.flag1 ∧ t.cnt = s.cnt ∧
        t.frameErr = s.frameErr ∧ t.standby = s.standby ∧ Emits s t [] ∧ SameMotors s t ∧ SameBuffer s t ∧
        SameEnvironment s t) ∧
    ((∃ z ∈ [d, i, p, q, r, u], z < -2147483648 ∨ 2147483647 < z) →
      exec (.pidStep m) s = .next { s with phase := .halted })

/-- The closed form of the turn under WRAP, and its value on a repeated error: R90, which the spec marks as its own
inference from R84 and R85. -/
def Obligations.TurnHasItsClosedForm : Prop :=
  ∀ (m : FrameMode) (s : State), s.params.arithOverflow = .wrap → ∃ t, exec (.pidStep m) s = .next t ∧
    t.turnReg.toInt = wrapInt (15 * s.errReg.toInt + (s.integral.toInt + s.errReg.toInt) - 10 * s.lastError.toInt) ∧
    t.turnReg.toInt = wrapInt (16 * s.errReg.toInt + s.integral.toInt - 10 * s.lastError.toInt) ∧
    (s.lastError = s.errReg →
      t.turnReg.toInt = wrapInt (5 * s.errReg.toInt + s.integral.toInt + s.errReg.toInt))

/-- R88, which the spec marks as its own inference from R84 and R16 to R18: over any run under WRAP without a reset,
`integral` is the wrapped sum of the errors that reached PID.STEP and `last_error` the latest of them, so abandoned
cycles contribute nothing; from reset the two start at 0. Under HALT (R86) the sum is exact, and a run that has halted
leaves out the error it halted on. A run counts waits as steps, the model's choice (log 6). -/
def Obligations.IntegralIsTheSumOfTheErrors : Prop :=
  (∀ (n : Nat) (s t : State), s.resetDone = true → s.params.arithOverflow = .wrap → EnvEvent.reset ∉ s.stimulus →
    Host.Core.run core n s = .next t →
    t.integral.toInt = wrapInt (s.integral.toInt + errorSum (pidErrors n s)) ∧
    t.lastError = (pidErrors n s).getLastD s.lastError) ∧
  (∀ (n : Nat) (s t : State), s.resetDone = true → s.params.arithOverflow = .halt → EnvEvent.reset ∉ s.stimulus →
    Host.Core.run core n s = .next t →
    (t.phase ≠ .halted →
      t.integral.toInt = s.integral.toInt + errorSum (pidErrors n s) ∧
      t.lastError = (pidErrors n s).getLastD s.lastError) ∧
    (s.phase ≠ .halted → t.phase = .halted →
      t.integral.toInt = s.integral.toInt + errorSum (pidErrors n s).dropLast ∧
      t.lastError = (pidErrors n s).dropLast.getLastD s.lastError)) ∧
  (∀ (n : Nat) (p : Params) (r : Half) (evs : List EnvEvent) (s t : State), p.arithOverflow = .wrap →
    EnvEvent.reset ∉ evs → s = { State.resetWith p r with stimulus := evs } → Host.Core.run core n s = .next t →
    t.integral.toInt = wrapInt (errorSum (pidErrors n s)) ∧ t.lastError = (pidErrors n s).getLastD 0)

/-- The overflow horizon of 70_reset_and_hazards.md R130, which the spec marks as its own inference from R84 and R86. By
hypothesis ControlState is what it is before frame `n` of a run of equal errors `e` from reset: `(n - 1) * e`, and `e`,
or 0 before frame 1; PID.STEP, while nothing overflows, leaves it what the hypothesis says of frame `n + 1`. Under HALT
the block halts from frame 112,370 (e = 19110) or 143,165,572 (e = -15) on and not before; under WRAP the turn is exact
before those frames only, and the integral up to frame 112,374 or 143,165,576. -/
def Obligations.OverflowHorizonIsWhereTheSpecSays : Prop :=
  ∀ (m : FrameMode) (s : State) (n : Nat) (e : Int) (turnAt integralAt : Nat),
    ((e = 19110 ∧ turnAt = 112370 ∧ integralAt = 112375) ∨
      (e = -15 ∧ turnAt = 143165572 ∧ integralAt = 143165577)) →
    1 ≤ n → s.errReg.toInt = e → s.lastError.toInt = (if n = 1 then 0 else e) →
    s.integral.toInt = ((n : Int) - 1) * e →
    ∃ t, exec (.pidStep m) s = .next t ∧
      (s.params.arithOverflow = .halt →
        (t.phase = .halted ↔ turnAt ≤ n) ∧
        (n < turnAt → t.integral.toInt = n * e ∧ t.lastError.toInt = e)) ∧
      (s.params.arithOverflow = .wrap →
        (t.turnReg.toInt = 5 * e + n * e + (if n = 1 then 10 * e else 0) ↔ n < turnAt) ∧
        (t.integral.toInt = n * e ↔ n < integralAt) ∧ t.lastError.toInt = e)

/-! ## The mapper -/

/-- MAP.DRV with a flag set (44_drive_map.md R91 to R95) completes in every such state and either mode bit: motor A
gets the clamped right duty and motor B the clamped left, each forward on its own flag (R94's three real rows),
standby is the range gate, and the two drives are emitted in order; nothing else changes. -/
def Obligations.MapDrvDrivesBothMotors : Prop :=
  ∀ (m : FrameMode) (s : State), s.flag0 = true ∨ s.flag1 = true → ∃ t, exec (.mapDrv m) s = .next t ∧
    t.motaFwd = s.flag0 ∧ t.motbFwd = s.flag1 ∧
    (t.motaDuty.toNat : Int) = max 0 (min 100 ((s.params.baseSpeed.toNat : Int) + s.turnReg.toInt)) ∧
    (t.motbDuty.toNat : Int) = max 0 (min 100 ((s.params.baseSpeed.toNat : Int) - s.turnReg.toInt)) ∧
    (t.standby = true ↔ s.rangeIn.toNat < 2000) ∧ t.phase = .start ∧
    Emits s t [.drive .a t.motaFwd t.motaDuty, .drive .b t.motbFwd t.motbDuty] ∧
    t.cnt = s.cnt ∧ t.frameErr = s.frameErr ∧ SameControl s t ∧ SameLatches s t ∧ SameBuffer s t ∧ SameEnvironment s t

/-- MAP.DRV with both flags clear (R94's last row, R95) completes: no motor write, no drive, standby engaged whatever
the range. -/
def Obligations.MapDrvStopCaseHoldsTheMotors : Prop :=
  ∀ (m : FrameMode) (s : State), s.flag0 = false → s.flag1 = false → ∃ t, exec (.mapDrv m) s = .next t ∧
    SameMotors s t ∧ Emits s t [] ∧ t.standby = true ∧ t.phase = .start ∧ t.cnt = s.cnt ∧ t.frameErr = s.frameErr ∧
    SameControl s t ∧ SameLatches s t ∧ SameBuffer s t ∧ SameEnvironment s t

/-- After MAP.DRV, `standby` is the range gate, or both flags clear: R96, which the spec marks as its own inference from
R91, R92 and R94. -/
def Obligations.StandbyAfterMapIsGateOrStop : Prop :=
  ∀ (m : FrameMode) (s : State), ∃ t, exec (.mapDrv m) s = .next t ∧
    (t.standby = true ↔ s.rangeIn.toNat < 2000 ∨ (s.flag0 = false ∧ s.flag1 = false))

/-- R98, which the spec marks as its own inference from R94: in every flag case the direction bits depend on the flags
alone, and (true, true) is forward, forward, whatever the duties. -/
def Obligations.DirectionsDependOnTheFlagsAlone : Prop :=
  ∀ (m m' : FrameMode) (s s' : State), s.flag0 = s'.flag0 → s.flag1 = s'.flag1 →
    ∃ t t' evs evs', exec (.mapDrv m) s = .next t ∧ exec (.mapDrv m') s' = .next t' ∧ Emits s t evs ∧ Emits s' t' evs' ∧
      driveDirections evs = driveDirections evs' ∧
      (s.flag0 = true → s.flag1 = true → driveDirections evs = [(.a, true), (.b, true)])

/-! ## Faults, outputs and who writes what -/

/-- Every operation emits one of: nothing, one transmit of 0x30, one fault report (never of stage Frame), or the two
drives with duties in 0..100 (30_encoding.md R56, 60_exceptions.md R109; 10_state.md R39, the spec's own inference).
-/
def Obligations.EventListsHaveTheSpecsShape : Prop :=
  ∀ (i : Instr) (s t : State), exec i s = .next t → ∃ evs, Emits s t evs ∧
    (evs = [] ∨ evs = [.tx 0x30] ∨ (∃ st, st ≠ Stage.frame ∧ evs = [.fault st]) ∨
      ∃ fa da fb db, da.toNat ≤ 100 ∧ db.toNat ≤ 100 ∧ evs = [.drive .a fa da, .drive .b fb db])

/-- R101 and R103: FS.FIXF, FS.HUNTF and FS.BODYF report one Read fault each, DEC.STR one Decode fault exactly when
STRUCT_DECODE fails, and no other operation reports anything. -/
def Obligations.FaultsComeFromTheirOperationsAlone : Prop :=
  ∀ (i : Instr) (s t : State), exec i s = .next t →
    (i = .fsFixf ∨ i = .fsHuntf ∨ i = .fsBodyf → Emits s t [.fault .read]) ∧
    (i = .decStr → Emits s t (if Config.structDecode (frameBody s) = none then [.fault .decode] else [])) ∧
    (i ≠ .fsFixf → i ≠ .fsHuntf → i ≠ .fsBodyf → i ≠ .decStr →
      ∀ evs, Emits s t evs → ∀ st, OutEvent.fault st ∉ evs)

/-- R102: a report is one event that shows its stage's code on the port, `standby` is set under ASSERT and not written
under HOLD, nothing else is written, and no operation emits another event beside it. -/
def Obligations.FaultReportWritesStandbyOnly : Prop :=
  (∀ (st : Stage) (s : State), s.stepEvents = [] →
    raiseFault st s = { s with
      standby := if s.params.faultStandby = .assert then true else s.standby,
      stepEvents := [.fault st], trace := s.trace ++ [.fault st] } ∧
    faultValid (raiseFault st s) = true ∧ faultStage (raiseFault st s) = some st.code) ∧
  (∀ (i : Instr) (s t : State) (evs : List OutEvent) (st : Stage), exec i s = .next t → Emits s t evs →
    .fault st ∈ evs → evs = [.fault st] ∧ StandbyOfFault s t)

/-- R104: `abandon` writes the phase, the counter and the mark, and nothing else. -/
def Obligations.AbandonWritesThreeElements : Prop :=
  ∀ s : State, abandon s = { s with phase := .start, cnt := 0, frameErr := false }

/-- R57: the stage codes; 3 is reserved, names no stage, is no stage's code and is never output. -/
def Obligations.FaultStageCodes : Prop :=
  Stage.read.code = 0 ∧ Stage.frame.code = 1 ∧ Stage.decode.code = 2 ∧ (∀ st : Stage, st.code ≠ 3) ∧
  Stage.ofCode 3 = none ∧ (∀ st : Stage, Stage.ofCode st.code = some st) ∧ ∀ s : State, faultStage s ≠ some 3

/-- The strobes and calls of 10_state.md R37 and R38 in the step of an operation: both motors are written or neither,
exactly by MAP.DRV with a flag set; `fault_valid` is 1 exactly when the operation reports, with its stage's code; the
enable call is made exactly by a report under ASSERT or by MAP.DRV that engages a released standby, the disable call
exactly by MAP.DRV that releases an engaged one. -/
def Obligations.StrobesFollowTheOperation : Prop :=
  ∀ (i : Instr) (s t : State), s.stepEvents = [] → exec i s = .next t →
    motaWe t = motbWe t ∧
    (motaWe t = true ↔ (∃ m, i = .mapDrv m) ∧ (s.flag0 = true ∨ s.flag1 = true)) ∧
    (faultValid t = true ↔ i = .fsFixf ∨ i = .fsHuntf ∨ i = .fsBodyf ∨
      (i = .decStr ∧ Config.structDecode (frameBody s) = none)) ∧
    (faultStage t = some 0 ↔ i = .fsFixf ∨ i = .fsHuntf ∨ i = .fsBodyf) ∧
    (faultStage t = some 2 ↔ i = .decStr ∧ Config.structDecode (frameBody s) = none) ∧
    (standbyCall s t = some .enableStandby ↔ s.standby = false ∧
      ((faultValid t = true ∧ s.params.faultStandby = .assert) ∨
        ((∃ m, i = .mapDrv m) ∧ (s.rangeIn.toNat < 2000 ∨ (s.flag0 = false ∧ s.flag1 = false))))) ∧
    (standbyCall s t = some .disableStandby ↔ s.standby = true ∧
      (∃ m, i = .mapDrv m) ∧ 2000 ≤ s.rangeIn.toNat ∧ (s.flag0 = true ∨ s.flag1 = true))

/-- The "written by" column of 10_state.md R15 (R16 to R23, R27, R28): an element an operation does not list there keeps
its value. The column lists every operation for `phase` and every FS operation for `cnt`; an abandonment is FS.FIXF's,
FS.HUNTF's, a body's last byte's or a failed DEC.STR's. -/
def Obligations.EachElementHasItsWritersOnly : Prop :=
  ∀ (i : Instr) (s t : State), exec i s = .next t →
    ((∀ m, i ≠ .pidStep m) → SameControl s t ∧ t.turnReg = s.turnReg) ∧
    (i ≠ .decRaw → i ≠ .decStr → t.errReg = s.errReg ∧ t.flag0 = s.flag0 ∧ t.flag1 = s.flag1) ∧
    ((∀ m, i ≠ .mapDrv m) → SameMotors s t) ∧
    ((∀ b, i ≠ .fsFixb b) → (∀ b, i ≠ .fsBodyb b) → i ≠ .fsBodyf → t.buf = s.buf) ∧
    (i = .decRaw ∨ (∃ m, i = .pidStep m) ∨ (∃ m, i = .mapDrv m) → t.cnt = s.cnt ∧ t.frameErr = s.frameErr) ∧
    (i = .decStr → t.phase ≠ .start → t.cnt = s.cnt ∧ t.frameErr = s.frameErr) ∧
    (i = .fsTrig ∨ i = .fsHunt ∨ (∃ b, i = .fsFixb b) ∨ (∃ b, i = .fsSkip b) → t.frameErr = s.frameErr) ∧
    ((∃ b, i = .fsBodyb b) → t.phase ≠ .start → t.frameErr = s.frameErr) ∧
    ((∀ m, i ≠ .mapDrv m) → (∀ evs, Emits s t evs → ∀ st, OutEvent.fault st ∉ evs) → t.standby = s.standby) ∧
    SameEnvironment s t

/-- 10_state.md R18, which the spec marks as its own inference from R25 and R84: without `rst`, ControlState changes
in no step but that of phase PID. -/
def Obligations.ControlStateChangesOnlyInPhasePid : Prop :=
  ∀ s t : State, step s = .next t → offered s ≠ some .reset → s.phase ≠ .pid → SameControl s t

/-- 70_reset_and_hazards.md R119: no step, of any kind, changes a parameter. -/
def Obligations.ParametersNeverChange : Prop :=
  ∀ s t : State, step s = .next t → t.params = s.params

/-- 30_encoding.md R53: an accepted trigger in FIXED mode transmits 0x30; no other byte is ever transmitted, and nothing
is transmitted in DELIMITED mode. -/
def Obligations.OnlyTheTriggerIsTransmitted : Prop :=
  (∀ s : State, s.resetDone = true → s.params.frameMode = .fixed → s.phase = .start → offered s = some .txa →
    ∃ t, step s = .next t ∧ t.stepEvents = [.tx 0x30]) ∧
  (∀ (s t : State) (b : Byte), step s = .next t → .tx b ∈ t.stepEvents →
    b = 0x30 ∧ s.params.frameMode = .fixed ∧ s.phase = .start ∧ txTransfer s = true)

/-- 10_state.md R34, R35 and 70_reset_and_hazards.md R121: a transfer consumes exactly the event offered, and without
one every channel event stays. -/
def Obligations.OnlyATransferConsumesAChannelEvent : Prop :=
  ∀ s t : State, offered s ≠ some .reset → step s = .next t →
    (rxTransfer s = true ∨ txTransfer s = true → t.stimulus = (pending s).tail) ∧
    (rxTransfer s = false → txTransfer s = false →
      t.stimulus.filter isChannelEvent = s.stimulus.filter isChannelEvent)

/-- 10_state.md R36, 70_reset_and_hazards.md R125: outside phase MAP the level of `range_in` has no effect on a step
but to stay what it is. -/
def Obligations.RangeMattersOnlyInPhaseMap : Prop :=
  ∀ (s : State) (r : Half), s.phase ≠ .map →
    match step s, step { s with rangeIn := r } with
    | .next t, .next t' => t = { t' with rangeIn := t.rangeIn }
    | .fault f, .fault f' => f = f'
    | .refused f, .refused f' => f = f'
    | _, _ => False

/-! ## Invariants and runs -/

/-- Every reset state meets the reachability invariant (10_state.md R26, R40), with any inputs and coming events. -/
def Obligations.ResetMeetsTheInvariant : Prop :=
  Inv State.reset ∧
  ∀ (p : Params) (r : Half) (evs : List EnvEvent), Inv { State.resetWith p r with stimulus := evs }

/-- Every step keeps the reachability invariant: the phase stays one the mode has and HALTED is entered only under
HALT (R25, R26), the counter stays in its range and is 0 outside RECV and BODY (R22; R22 and R26 are the spec's own
inferences), the mark is set only in BODY (R23), the duties stay in 0..100 (R27), the buffer keeps its canonical form
(log 11). -/
def Obligations.EveryStepKeepsTheInvariant : Prop :=
  ∀ s t : State, Inv s → step s = .next t → Inv t

/-- Every state of a run from reset (R117) meets the reachability invariant (R26, the spec's own inference) and has been
reset. Two parts are the model's: the canonical form of the buffer in the invariant (log 11), and the flag `resetDone`
(log 13). -/
def Obligations.ReachableStatesMeetTheInvariant : Prop :=
  ∀ s : State, Reachable s → Inv s ∧ s.resetDone = true

/-- 00_scope.md R13, 60_exceptions.md R100: where the invariant holds a step answers a next state, except in HALTED, which
exists only under HALT and only `rst` leaves. Under WRAP nothing ever stops the block. Two choices are the model's: a
wait, of which R120 says that the block has no step there, is a next state (log 6), and being stuck in HALTED is
answered as the fault `halted` (log 7). -/
def Obligations.NothingStopsButHalted : Prop :=
  ∀ s : State, Inv s → s.resetDone = true →
    ((∃ t, step s = .next t) ∨ (s.phase = .halted ∧ offered s ≠ some .reset ∧ step s = .fault .halted)) ∧
    (s.params.arithOverflow = .wrap → ∃ t, step s = .next t)

/-- 10_state.md R19 to R21 and 20_memory.md R43, which the spec marks as its own inferences from the phase order: a
latch left from an earlier cycle, a buffer byte left from an earlier frame, and so their reset values, are never
observed: two states that differ in them alone step alike and keep agreeing. The canonical form of the buffers is the
model's own (log 11) and is kept beside. -/
def Obligations.StaleLatchesAndBytesAreUnobservable : Prop :=
  ∀ s s' : State, Memory.wf s.buf = true → Memory.wf s'.buf = true → LiveAgree s s' →
    match step s, step s' with
    | .next t, .next t' => LiveAgree t t' ∧ Memory.wf t.buf = true ∧ Memory.wf t'.buf = true
    | .fault f, .fault f' => f = f'
    | .refused f, .refused f' => f = f'
    | _, _ => False

/-- 30_encoding.md R70 and 70_reset_and_hazards.md R127, which the spec marks as its own inferences from R71 to R95: a
FIXED cycle of five good bytes takes nine steps and gives the decoded error, the control law and the mapped outputs,
from any ControlState and any leftovers, under WRAP, and under HALT where nothing overflows. RANGE lines and idle
steps may follow the frame at once (how they fall among the last three steps is log 5); a RESET that falls there ends
the cycle and is left to the statement about resets. -/
def Obligations.FixedCycleTakesNineSteps : Prop :=
  ∀ (s : State) (b0 b1 b2 b3 b4 : Byte) (rest left : List EnvEvent) (r : Half) (e : Int),
    s.params.frameMode = .fixed → s.phase = .start → s.resetDone = true → Memory.wf s.buf = true →
    s.stimulus = .txa :: .rxb b0 :: .rxb b1 :: .rxb b2 :: .rxb b3 :: .rxb b4 :: rest →
    afterInternalSteps 3 rest s.rangeIn = some (left, r) →
    e = rawSum b0 b1 b2 b3 b4 →
    (s.params.arithOverflow = .halt → PidFits e s.integral.toInt s.lastError.toInt) →
    ∃ t, Host.Core.run core 9 s = .next t ∧ t.phase = .start ∧ t.cnt = 0 ∧ t.stimulus = left ∧ t.rangeIn = r ∧
      t.integral.toInt = wrapInt (s.integral.toInt + e) ∧ t.lastError.toInt = e ∧
      t.turnReg.toInt = wrapInt (16 * e + s.integral.toInt - 10 * s.lastError.toInt) ∧
      (b0 = 48 ∨ b1 = 48 →
        t.motaFwd = decide (b0 = 48) ∧ t.motbFwd = decide (b1 = 48) ∧
        (t.motaDuty.toNat : Int) = max 0 (min 100 ((s.params.baseSpeed.toNat : Int) + t.turnReg.toInt)) ∧
        (t.motbDuty.toNat : Int) = max 0 (min 100 ((s.params.baseSpeed.toNat : Int) - t.turnReg.toInt)) ∧
        t.standby = decide (r.toNat < 2000) ∧
        t.trace = s.trace ++ [.tx 0x30, .drive .a t.motaFwd t.motaDuty, .drive .b t.motbFwd t.motbDuty]) ∧
      (b0 ≠ 48 → b1 ≠ 48 → SameMotors s t ∧ t.standby = true ∧ t.trace = s.trace ++ [.tx 0x30])

/-- 41_frame_sync.md R74 to R78, and 30_encoding.md R55, whose fixed body length the spec marks as its own inference:
in DELIMITED mode any bytes but the sentinel are discarded, and after the sentinel exactly 74 bytes, whatever their
values, are the body in arrival order (20_memory.md R42); no register but the counter, the mark and the phase is
touched and nothing is emitted. -/
def Obligations.DelimitedFrameIsFoundAfterAnyGarbage : Prop :=
  ∀ (s : State) (garbage : List Byte) (body : Fin 74 → Byte) (rest : List EnvEvent),
    s.params.frameMode = .delimited → s.phase = .start → s.resetDone = true → Memory.wf s.buf = true →
    0x7B ∉ garbage →
    s.stimulus = garbage.map .rxb ++ .rxb 0x7B :: ((List.ofFn body).map .rxb ++ rest) →
    ∃ t, Host.Core.run core (garbage.length + 76) s = .next t ∧ t.phase = .decode ∧ t.cnt = 0 ∧ t.frameErr = false ∧
      (∀ k : Fin 74, Memory.read t.buf k.val = body k) ∧ t.stimulus = rest ∧ t.trace = s.trace ∧
      t.standby = s.standby ∧ SameControl s t ∧ SameLatches s t ∧ SameMotors s t

/-- R76, and the property it quotes: in the hunt, a stream with garbage before it is parsed identically to the stream
without, at any later point. -/
def Obligations.GarbageInTheHuntIsInvisible : Prop :=
  ∀ (s : State) (garbage : List Byte) (rest : List EnvEvent) (n : Nat),
    s.params.frameMode = .delimited → s.phase = .hunt → s.resetDone = true → 0x7B ∉ garbage →
    Host.Core.run core (garbage.length + (n + 1)) { s with stimulus := garbage.map .rxb ++ rest } =
      Host.Core.run core (n + 1) { s with stimulus := rest }

/-- R79, 60_exceptions.md R103, and R106, which the spec marks as its own inference from R73 to R81: a body with
failed bytes is consumed to its 74th byte, reports one Read fault for each of them and nothing else, and is abandoned
without a decode: ControlState, latches and motors are as before. -/
def Obligations.DamagedBodyIsConsumedAndAbandoned : Prop :=
  ∀ (s : State) (evs rest : List EnvEvent), s.params.frameMode = .delimited → s.phase = .body → s.cnt = 0 →
    s.frameErr = false → s.resetDone = true → evs.length = 74 → (∀ e ∈ evs, isReceiveEvent e = true) →
    .rxf ∈ evs → s.stimulus = evs ++ rest →
    ∃ t, Host.Core.run core 74 s = .next t ∧ Abandoned t ∧ t.stimulus = rest ∧
      t.trace = s.trace ++ List.replicate (evs.count .rxf) (.fault .read) ∧ StandbyOfFault s t ∧
      SameControl s t ∧ SameLatches s t ∧ SameMotors s t
end

