-- ==== Sys2Proof/Laws/Constants.lean ====
section
/-! SUPPORT. The value of each hardwired constant (00_scope.md R7), so that no proof unfolds the record. -/

namespace Sys2Proof.Machine

@[simp] theorem constants_kp : constants.kp = 5 := rfl
@[simp] theorem constants_ki : constants.ki = 1 := rfl
@[simp] theorem constants_kd : constants.kd = 10 := rfl
@[simp] theorem constants_w0 : constants.w0 = 5 := rfl
@[simp] theorem constants_w1 : constants.w1 = 10 := rfl
@[simp] theorem constants_w2 : constants.w2 = 15 := rfl
@[simp] theorem constants_w3 : constants.w3 = 20 := rfl
@[simp] theorem constants_w4 : constants.w4 = 25 := rfl
@[simp] theorem constants_offset : constants.offset = 15 := rfl
@[simp] theorem constants_flagByte : constants.flagByte = 48 := rfl
@[simp] theorem constants_triggerByte : constants.triggerByte = 0x30 := rfl
@[simp] theorem constants_nFixed : constants.nFixed = 5 := rfl
@[simp] theorem constants_sentinel : constants.sentinel = 0x7B := rfl
@[simp] theorem constants_bodyLen : constants.bodyLen = 74 := rfl
@[simp] theorem constants_rangeThreshold : constants.rangeThreshold = 2000 := rfl
@[simp] theorem constants_dutyMin : constants.dutyMin = 0 := rfl
@[simp] theorem constants_dutyMax : constants.dutyMax = 100 := rfl

end Sys2Proof.Machine
end

