-- ==== Sys2Proof/Laws/Arith.lean ====
section
/-! SUPPORT. The derived operators of 00_scope.md R10 and the clamped duty of 44_drive_map.md R93. -/

namespace Sys2Proof.Machine

theorem fits32_iff (z : Int) : fits32 z = true ↔ -2147483648 ≤ z ∧ z ≤ 2147483647 := by
  simp [fits32]

/-- The signed value of `wrap32 z` is `z` modulo 2^32, brought into the signed range. -/
theorem wrap32_toInt (z : Int) : (wrap32 z).toInt = Int.bmod z 4294967296 := by
  simp [wrap32, BitVec.toInt_ofInt]

theorem wrap32_of_fits (z : Int) (h : fits32 z = true) : (wrap32 z).toInt = z := by
  rw [fits32_iff] at h
  rw [wrap32_toInt, Int.bmod_def]
  omega

@[simp] theorem wrap32_toInt_self (w : Word) : wrap32 w.toInt = w := BitVec.ofInt_toInt

/-- `wrap32` forgets multiples of 2^32, so it commutes with addition. -/
theorem wrap32_add (y z : Int) : wrap32 (y + z) = wrap32 y + wrap32 z := by
  simp [wrap32, BitVec.ofInt_add]

theorem wrap32_mul (y z : Int) : wrap32 (y * z) = wrap32 y * wrap32 z := by
  simp [wrap32, BitVec.ofInt_mul]

theorem clamp_bounds (z lo hi : Int) (h : lo ≤ hi) : lo ≤ clamp z lo hi ∧ clamp z lo hi ≤ hi := by
  unfold clamp
  split
  · omega
  · split <;> omega

/-- A duty byte holds exactly the clamped value. -/
theorem dutyOf_toNat (z : Int) : ((dutyOf z).toNat : Int) = clamp z 0 100 := by
  have hb := clamp_bounds z 0 100 (by decide)
  simp only [dutyOf, constants_dutyMin, constants_dutyMax, BitVec.toNat_ofInt]
  generalize clamp z 0 100 = c at hb
  omega

theorem dutyOf_le (z : Int) : (dutyOf z).toNat ≤ 100 := by
  have h := dutyOf_toNat z
  have hb := clamp_bounds z 0 100 (by decide)
  omega

end Sys2Proof.Machine
end

