-- ==== Sys2Proof/Laws/Decode.lean ====
section
/-! SUPPORT. What the decoder makes of the keys the sequencer forms (30_encoding.md R61), and how its row choice depends
on a key's two bytes, so that no later proof runs through the opcode map again. -/

namespace Sys2Proof

/-! ## The keys of each phase -/

theorem decode_start_accepted : decode (makeKey .fixed .start .txa 0) = .ok .fsTrig := by decide

theorem decode_start_delimited : decode (makeKey .delimited .start .none 0) = .ok .fsHunt := by decide

theorem decode_recv_byte (b : Byte) : decode (makeKey .fixed .recv .rxb b) = .ok (.fsFixb b) := by
  revert b; decide +kernel

theorem decode_recv_failed : decode (makeKey .fixed .recv .rxf 0) = .ok .fsFixf := by decide

theorem decode_hunt_byte (b : Byte) :
    decode (makeKey .delimited .hunt .rxb b) = .ok (if b = 0x7B then .fsSent else .fsSkip b) := by
  revert b; decide +kernel

theorem decode_hunt_failed : decode (makeKey .delimited .hunt .rxf 0) = .ok .fsHuntf := by decide

theorem decode_body_byte (b : Byte) : decode (makeKey .delimited .body .rxb b) = .ok (.fsBodyb b) := by
  revert b; decide +kernel

theorem decode_body_failed : decode (makeKey .delimited .body .rxf 0) = .ok .fsBodyf := by decide

theorem decode_decode (m : FrameMode) :
    decode (makeKey m .decode .none 0) = .ok (match m with | .fixed => .decRaw | .delimited => .decStr) := by
  cases m <;> decide

theorem decode_pid (m : FrameMode) : decode (makeKey m .pid .none 0) = .ok (.pidStep m) := by
  cases m <;> decide

theorem decode_map (m : FrameMode) : decode (makeKey m .map .none 0) = .ok (.mapDrv m) := by
  cases m <;> decide

/-! ## The receive keys of a phase its mode does not have (R64 (f)) -/

theorem decode_recv_delimited_byte (b : Byte) :
    decode (makeKey .delimited .recv .rxb b) = .error .unreachablePhase := by
  revert b; decide +kernel

theorem decode_recv_delimited_failed : decode (makeKey .delimited .recv .rxf 0) = .error .unreachablePhase := by decide

theorem decode_hunt_fixed_byte (b : Byte) : decode (makeKey .fixed .hunt .rxb b) = .error .unreachablePhase := by
  revert b; decide +kernel

theorem decode_hunt_fixed_failed : decode (makeKey .fixed .hunt .rxf 0) = .error .unreachablePhase := by decide

theorem decode_body_fixed_byte (b : Byte) : decode (makeKey .fixed .body .rxb b) = .error .unreachablePhase := by
  revert b; decide +kernel

theorem decode_body_fixed_failed : decode (makeKey .fixed .body .rxf 0) = .error .unreachablePhase := by decide

/-! ## Row choice by bytes -/

/-- The key with high byte `h` and low byte `d`. -/
def keyOfBytes (h d : Byte) : Key := (h.setWidth 16 <<< 8) ||| dataField d

theorem keyOfBytes_getLsbD (h d : Byte) (i : Nat) :
    (keyOfBytes h d).getLsbD i = if i < 8 then d.getLsbD i else decide (i < 16) && h.getLsbD (i - 8) := by
  by_cases hi : i < 8
  · simp [keyOfBytes, dataField, hi, show i < 16 from by omega]
  · by_cases h16 : i < 16
    · simp [keyOfBytes, dataField, hi, h16, BitVec.getLsbD_of_ge d i (by omega)]
    · simp [keyOfBytes, dataField, hi, h16]

/-- A key is its high byte and its low byte. -/
theorem key_eq_keyOfBytes (k : Key) : k = keyOfBytes (k.extractLsb' 8 8) (keyData k) := by
  apply BitVec.eq_of_getLsbD_eq
  intro i hi
  rw [keyOfBytes_getLsbD]
  by_cases h8 : i < 8
  · simp [h8, keyData]
  · simp [h8, hi, show i - 8 < 8 from by omega, show 8 + (i - 8) = i from by omega]

/-- A row accepts a key when it accepts both bytes of it. -/
theorem accepts_keyOfBytes (r : Row) (h d : Byte) :
    r.accepts (keyOfBytes h d) =
      (((h &&& r.mask.extractLsb' 8 8) == r.pattern.extractLsb' 8 8) &&
       ((d &&& r.mask.extractLsb' 0 8) == r.pattern.extractLsb' 0 8)) := by
  rw [Bool.eq_iff_iff]
  simp only [Row.accepts, Bool.and_eq_true, beq_iff_eq]
  constructor
  · intro e
    rw [← e]
    constructor <;> apply BitVec.eq_of_getLsbD_eq <;> intro i hi
    · simp only [BitVec.getLsbD_and, BitVec.getLsbD_extractLsb', keyOfBytes_getLsbD, hi]
      simp [show 8 + i < 16 from by omega]
    · simp only [BitVec.getLsbD_and, BitVec.getLsbD_extractLsb', keyOfBytes_getLsbD, hi]
      simp [hi]
  · rintro ⟨e1, e2⟩
    apply BitVec.eq_of_getLsbD_eq
    intro i hi
    rw [BitVec.getLsbD_and, keyOfBytes_getLsbD]
    by_cases hlt : i < 8
    · simpa [hlt] using congrArg (fun v => v.getLsbD i) e2
    · have h8 : i - 8 < 8 := by omega
      have hs : 8 + (i - 8) = i := by omega
      simpa [hlt, hi, h8, hs] using congrArg (fun v => v.getLsbD (i - 8)) e1

/-- The row a key selects, from its high byte and whether its low byte is 0 or the sentinel. -/
def selectByByte (h : Byte) (zero sentinel : Bool) : Option Row :=
  rows.foldl (fun best r =>
    if ((h &&& r.mask.extractLsb' 8 8) == r.pattern.extractLsb' 8 8) &&
        (if r.mask.extractLsb' 0 8 = 0 then true else if r.pattern.extractLsb' 0 8 = 0 then zero else sentinel)
    then preferRow best r else best) none

/-- Row choice looks at the low byte only for 0 and the sentinel. -/
theorem selectRow_keyOfBytes (h d : Byte) :
    selectRow (keyOfBytes h d) = selectByByte h (d == 0) (d == 0x7B) := by
  have hz : (d &&& 255#8) = d := BitVec.and_allOnes
  have step : ∀ r ∈ rows, r.accepts (keyOfBytes h d) =
      (((h &&& r.mask.extractLsb' 8 8) == r.pattern.extractLsb' 8 8) &&
        (if r.mask.extractLsb' 0 8 = 0 then true
          else if r.pattern.extractLsb' 0 8 = 0 then d == 0 else d == 0x7B)) := by
    intro r hr
    rw [accepts_keyOfBytes]
    congr 1
    simp only [rows, List.mem_cons, List.not_mem_nil, or_false] at hr
    rcases hr with rfl | rfl | rfl | rfl | rfl | rfl | rfl | rfl | rfl | rfl | rfl | rfl | rfl <;>
      simp [hz, Bool.beq_eq_decide_eq]
  unfold selectRow selectByByte
  exact List.foldl_ext _ _ none fun b r hr => by rw [step r hr]

end Sys2Proof
end

