-- ==== Sys2Proof/Laws/Flags.lean ====
section
/-! SUPPORT. What the flag computations say. -/

namespace Sys2Proof.Machine

/-- The range gate engages strictly below 2000 (44_drive_map.md R92). -/
theorem rangeGate_iff (r : Half) : rangeGate r = true ↔ r.toNat < 2000 := decide_eq_true_iff

/-- A direction flag is the byte 48 (42_decode.md R80). -/
theorem directionFlag_iff (b : Byte) : directionFlag b = true ↔ b = 48 := by
  unfold directionFlag
  rw [beq_iff_eq, constants_flagByte]

/-- The stop case is the only one without directions (44_drive_map.md R94). -/
theorem directions_eq_none (f0 f1 : Bool) : directions f0 f1 = none ↔ f0 = false ∧ f1 = false := by
  cases f0 <;> cases f1 <;> decide

/-- In the real cases each motor goes forward exactly on its own flag (R94). -/
theorem directions_eq_some (f0 f1 : Bool) (h : f0 = true ∨ f1 = true) : directions f0 f1 = some (f0, f1) := by
  revert h
  cases f0 <;> cases f1 <;> decide

end Sys2Proof.Machine
end

