-- ==== Sys2Proof/Laws/Memory.lean ====
section
/-! SUPPORT. The payload buffer's laws: a read after a write, the canonical form is kept, and equal contents are equal
data. -/

namespace Sys2Proof.Machine

theorem wfFrom_cons (lo a : Nat) (v : Byte) (m : Memory) :
    Memory.wfFrom lo ((a, v) :: m) = true ↔
      lo ≤ a ∧ a < 74 ∧ v ≠ unlistedByte ∧ Memory.wfFrom (a + 1) m = true := by
  simp only [Memory.wfFrom, Bool.and_eq_true, decide_eq_true_eq, and_assoc]
  exact Iff.rfl

theorem wfFrom_mono (lo hi : Nat) (m : Memory) (h : lo ≤ hi) (hm : Memory.wfFrom hi m = true) :
    Memory.wfFrom lo m = true := by
  cases m with
  | nil => rfl
  | cons c m =>
    obtain ⟨a, v⟩ := c
    rw [wfFrom_cons] at hm ⊢
    exact ⟨h.trans hm.1, hm.2⟩

/-- Below the first listed index every byte is unlisted. -/
theorem read_below (lo k : Nat) (m : Memory) (hm : Memory.wfFrom lo m = true) (hk : k < lo) :
    Memory.read m k = unlistedByte := by
  induction m generalizing lo with
  | nil => rfl
  | cons c m ih =>
    obtain ⟨a, v⟩ := c
    rw [wfFrom_cons] at hm
    obtain ⟨h1, -, -, h4⟩ := hm
    have hne : k ≠ a := by omega
    simp only [Memory.read, hne, if_false]
    exact ih (a + 1) h4 (by omega)

theorem write_wfFrom (lo k : Nat) (v : Byte) (m : Memory) (hm : Memory.wfFrom lo m = true) (hlo : lo ≤ k)
    (hk : k < 74) : Memory.wfFrom lo (Memory.write m k v) = true := by
  induction m generalizing lo with
  | nil =>
    by_cases hv : v = unlistedByte
    · simp [Memory.write, hv, Memory.wfFrom]
    · simp only [Memory.write, hv, if_false, wfFrom_cons]
      exact ⟨hlo, hk, hv, rfl⟩
  | cons c m ih =>
    obtain ⟨a, w⟩ := c
    have hm' := (wfFrom_cons lo a w m).1 hm
    obtain ⟨h1, h2, h3, h4⟩ := hm'
    unfold Memory.write
    by_cases hka : k < a
    · by_cases hv : v = unlistedByte
      · simp [hka, hv, hm]
      · simp only [hka, hv, if_true, if_false, wfFrom_cons]
        exact ⟨hlo, hk, hv, by omega, h2, h3, h4⟩
    · by_cases hke : k = a
      · by_cases hv : v = unlistedByte
        · simp only [hke, hv, if_true, if_false, lt_irrefl]
          exact wfFrom_mono lo (a + 1) m (by omega) h4
        · simp only [hke, hv, if_true, if_false, wfFrom_cons, lt_irrefl]
          exact ⟨by omega, by omega, hv, h4⟩
      · simp only [hka, hke, if_false, wfFrom_cons]
        exact ⟨h1, h2, h3, ih (a + 1) h4 (by omega)⟩

/-- A write gives its index the new byte and leaves every other index alone. -/
theorem read_write_from (lo k : Nat) (v : Byte) (m : Memory) (hm : Memory.wfFrom lo m = true) (j : Nat) :
    Memory.read (Memory.write m k v) j = if j = k then v else Memory.read m j := by
  induction m generalizing lo with
  | nil =>
    by_cases hv : v = unlistedByte
    · simp [Memory.write, hv, Memory.read]
    · simp [Memory.write, hv, Memory.read]
  | cons c m ih =>
    obtain ⟨a, w⟩ := c
    obtain ⟨h1, h2, h3, h4⟩ := (wfFrom_cons lo a w m).1 hm
    unfold Memory.write
    by_cases hka : k < a
    · by_cases hv : v = unlistedByte
      · simp only [hka, hv, if_true]
        by_cases hj : j = k
        · subst hj
          simp only [if_true]
          exact read_below a j ((a, w) :: m) ((wfFrom_cons a a w m).2 ⟨le_refl a, h2, h3, h4⟩) hka
        · simp [hj]
      · simp only [hka, hv, if_true, if_false]
        rw [Memory.read]
    · by_cases hke : k = a
      · subst hke
        by_cases hv : v = unlistedByte
        · simp only [hka, hv, if_true, if_false]
          by_cases hj : j = k
          · subst hj
            simp only [if_true]
            exact read_below (j + 1) j m h4 (by omega)
          · simp [hj, Memory.read]
        · simp only [hka, hv, if_true, if_false]
          by_cases hj : j = k <;> simp [hj, Memory.read]
      · simp only [hka, hke, if_false]
        by_cases hja : j = a
        · have : ¬ j = k := by omega
          have hak : ¬ a = k := by omega
          simp [Memory.read, hja, hak]
        · simp only [Memory.read, hja, if_false]
          exact ih (a + 1) h4

theorem read_write (m : Memory) (k : Nat) (v : Byte) (hm : Memory.wf m = true) (j : Nat) :
    Memory.read (Memory.write m k v) j = if j = k then v else Memory.read m j :=
  read_write_from 0 k v m hm j

theorem read_write_same (m : Memory) (k : Nat) (v : Byte) (hm : Memory.wf m = true) :
    Memory.read (Memory.write m k v) k = v := by
  simp [read_write m k v hm]

theorem read_write_other (m : Memory) (k j : Nat) (v : Byte) (hm : Memory.wf m = true) (h : j ≠ k) :
    Memory.read (Memory.write m k v) j = Memory.read m j := by
  simp [read_write m k v hm, h]

/-- A write at an index that exists keeps the canonical form. -/
theorem write_wf (m : Memory) (k : Nat) (v : Byte) (hm : Memory.wf m = true) (hk : k < 74) :
    Memory.wf (Memory.write m k v) = true :=
  write_wfFrom 0 k v m hm (Nat.zero_le k) hk

/-- The only writer of the buffer keeps its canonical form. -/
theorem memWrite_keeps_wf (k : Nat) (v : Byte) (s t : State) (hs : Memory.wf s.buf = true)
    (h : memWrite k v s = .next t) : Memory.wf t.buf = true := by
  unfold memWrite at h
  split at h
  next hk =>
    cases h
    exact write_wf s.buf k v hs hk
  next => cases h

@[simp] theorem memWrite_next (k : Nat) (v : Byte) (s : State) (h : k < 74) :
    memWrite k v s = .next { s with buf := Memory.write s.buf k v } := by
  simp [memWrite, h]

theorem memWrite_no_such_byte (k : Nat) (v : Byte) (s : State) (h : 74 ≤ k) :
    memWrite k v s = .fault .noSuchByte := by
  simp [memWrite, Nat.not_lt.2 h]

theorem ext_from (lo : Nat) (m n : Memory) (hm : Memory.wfFrom lo m = true) (hn : Memory.wfFrom lo n = true)
    (h : ∀ k, Memory.read m k = Memory.read n k) : m = n := by
  induction m generalizing lo n with
  | nil =>
    cases n with
    | nil => rfl
    | cons c n =>
      obtain ⟨a, v⟩ := c
      have hn' := (wfFrom_cons lo a v n).1 hn
      have := h a
      simp only [Memory.read, if_true] at this
      exact absurd this.symm hn'.2.2.1
  | cons c m ih =>
    obtain ⟨a, v⟩ := c
    obtain ⟨h1, h2, h3, h4⟩ := (wfFrom_cons lo a v m).1 hm
    cases n with
    | nil =>
      have := h a
      simp only [Memory.read, if_true] at this
      exact absurd this h3
    | cons d n =>
      obtain ⟨b, w⟩ := d
      obtain ⟨g1, g2, g3, g4⟩ := (wfFrom_cons lo b w n).1 hn
      have hab : a = b := by
        by_contra hne
        rcases Nat.lt_or_gt_of_ne hne with hlt | hlt
        · have e := h a
          rw [read_below b a ((b, w) :: n) ((wfFrom_cons b b w n).2 ⟨le_refl b, g2, g3, g4⟩) hlt] at e
          simp only [Memory.read, if_true] at e
          exact h3 e
        · have e := h b
          rw [read_below a b ((a, v) :: m) ((wfFrom_cons a a v m).2 ⟨le_refl a, h2, h3, h4⟩) hlt] at e
          simp only [Memory.read, if_true] at e
          exact g3 e.symm
      subst hab
      have hvw : v = w := by
        have e := h a
        simpa only [Memory.read, if_true] using e
      subst hvw
      have htail : m = n := by
        refine ih (a + 1) n h4 g4 fun k => ?_
        by_cases hk : k = a
        · subst hk
          rw [read_below (k + 1) k m h4 (by omega), read_below (k + 1) k n g4 (by omega)]
        · have e := h k
          simpa only [Memory.read, hk, if_false] using e
      rw [htail]

/-- Buffers of canonical form with equal bytes are equal data. -/
theorem memory_ext (m n : Memory) (hm : Memory.wf m = true) (hn : Memory.wf n = true)
    (h : ∀ k, Memory.read m k = Memory.read n k) : m = n :=
  ext_from 0 m n hm hn h

end Sys2Proof.Machine
end

