-- ==== Sys2Proof/Laws/State.lean ====
section
/-! SUPPORT. What each named update of the state does to each field, true by unfolding, so that no later proof unfolds a
record update. -/

namespace Sys2Proof.Machine

/-! ## emit -/

@[simp] theorem emit_params (e : OutEvent) (s : State) : (emit e s).params = s.params := rfl
@[simp] theorem emit_integral (e : OutEvent) (s : State) : (emit e s).integral = s.integral := rfl
@[simp] theorem emit_lastError (e : OutEvent) (s : State) : (emit e s).lastError = s.lastError := rfl
@[simp] theorem emit_errReg (e : OutEvent) (s : State) : (emit e s).errReg = s.errReg := rfl
@[simp] theorem emit_flag0 (e : OutEvent) (s : State) : (emit e s).flag0 = s.flag0 := rfl
@[simp] theorem emit_flag1 (e : OutEvent) (s : State) : (emit e s).flag1 = s.flag1 := rfl
@[simp] theorem emit_turnReg (e : OutEvent) (s : State) : (emit e s).turnReg = s.turnReg := rfl
@[simp] theorem emit_buf (e : OutEvent) (s : State) : (emit e s).buf = s.buf := rfl
@[simp] theorem emit_cnt (e : OutEvent) (s : State) : (emit e s).cnt = s.cnt := rfl
@[simp] theorem emit_frameErr (e : OutEvent) (s : State) : (emit e s).frameErr = s.frameErr := rfl
@[simp] theorem emit_phase (e : OutEvent) (s : State) : (emit e s).phase = s.phase := rfl
@[simp] theorem emit_motaFwd (e : OutEvent) (s : State) : (emit e s).motaFwd = s.motaFwd := rfl
@[simp] theorem emit_motaDuty (e : OutEvent) (s : State) : (emit e s).motaDuty = s.motaDuty := rfl
@[simp] theorem emit_motbFwd (e : OutEvent) (s : State) : (emit e s).motbFwd = s.motbFwd := rfl
@[simp] theorem emit_motbDuty (e : OutEvent) (s : State) : (emit e s).motbDuty = s.motbDuty := rfl
@[simp] theorem emit_standby (e : OutEvent) (s : State) : (emit e s).standby = s.standby := rfl
@[simp] theorem emit_stimulus (e : OutEvent) (s : State) : (emit e s).stimulus = s.stimulus := rfl
@[simp] theorem emit_rangeIn (e : OutEvent) (s : State) : (emit e s).rangeIn = s.rangeIn := rfl
@[simp] theorem emit_resetDone (e : OutEvent) (s : State) : (emit e s).resetDone = s.resetDone := rfl
@[simp] theorem emit_stepEvents (e : OutEvent) (s : State) : (emit e s).stepEvents = s.stepEvents ++ [e] := rfl
@[simp] theorem emit_trace (e : OutEvent) (s : State) : (emit e s).trace = s.trace ++ [e] := rfl

/-! ## raiseFault -/

@[simp] theorem raiseFault_params (st : Stage) (s : State) : (raiseFault st s).params = s.params := rfl
@[simp] theorem raiseFault_integral (st : Stage) (s : State) : (raiseFault st s).integral = s.integral := rfl
@[simp] theorem raiseFault_lastError (st : Stage) (s : State) : (raiseFault st s).lastError = s.lastError := rfl
@[simp] theorem raiseFault_errReg (st : Stage) (s : State) : (raiseFault st s).errReg = s.errReg := rfl
@[simp] theorem raiseFault_flag0 (st : Stage) (s : State) : (raiseFault st s).flag0 = s.flag0 := rfl
@[simp] theorem raiseFault_flag1 (st : Stage) (s : State) : (raiseFault st s).flag1 = s.flag1 := rfl
@[simp] theorem raiseFault_turnReg (st : Stage) (s : State) : (raiseFault st s).turnReg = s.turnReg := rfl
@[simp] theorem raiseFault_buf (st : Stage) (s : State) : (raiseFault st s).buf = s.buf := rfl
@[simp] theorem raiseFault_cnt (st : Stage) (s : State) : (raiseFault st s).cnt = s.cnt := rfl
@[simp] theorem raiseFault_frameErr (st : Stage) (s : State) : (raiseFault st s).frameErr = s.frameErr := rfl
@[simp] theorem raiseFault_phase (st : Stage) (s : State) : (raiseFault st s).phase = s.phase := rfl
@[simp] theorem raiseFault_motaFwd (st : Stage) (s : State) : (raiseFault st s).motaFwd = s.motaFwd := rfl
@[simp] theorem raiseFault_motaDuty (st : Stage) (s : State) : (raiseFault st s).motaDuty = s.motaDuty := rfl
@[simp] theorem raiseFault_motbFwd (st : Stage) (s : State) : (raiseFault st s).motbFwd = s.motbFwd := rfl
@[simp] theorem raiseFault_motbDuty (st : Stage) (s : State) : (raiseFault st s).motbDuty = s.motbDuty := rfl
@[simp] theorem raiseFault_standby (st : Stage) (s : State) : (raiseFault st s).standby = standbyAfterFault s := rfl
@[simp] theorem raiseFault_stimulus (st : Stage) (s : State) : (raiseFault st s).stimulus = s.stimulus := rfl
@[simp] theorem raiseFault_rangeIn (st : Stage) (s : State) : (raiseFault st s).rangeIn = s.rangeIn := rfl
@[simp] theorem raiseFault_resetDone (st : Stage) (s : State) : (raiseFault st s).resetDone = s.resetDone := rfl
@[simp] theorem raiseFault_stepEvents (st : Stage) (s : State) : (raiseFault st s).stepEvents = s.stepEvents ++ [.fault st] := rfl
@[simp] theorem raiseFault_trace (st : Stage) (s : State) : (raiseFault st s).trace = s.trace ++ [.fault st] := rfl

/-! ## abandon -/

@[simp] theorem abandon_params (s : State) : (abandon s).params = s.params := rfl
@[simp] theorem abandon_integral (s : State) : (abandon s).integral = s.integral := rfl
@[simp] theorem abandon_lastError (s : State) : (abandon s).lastError = s.lastError := rfl
@[simp] theorem abandon_errReg (s : State) : (abandon s).errReg = s.errReg := rfl
@[simp] theorem abandon_flag0 (s : State) : (abandon s).flag0 = s.flag0 := rfl
@[simp] theorem abandon_flag1 (s : State) : (abandon s).flag1 = s.flag1 := rfl
@[simp] theorem abandon_turnReg (s : State) : (abandon s).turnReg = s.turnReg := rfl
@[simp] theorem abandon_buf (s : State) : (abandon s).buf = s.buf := rfl
@[simp] theorem abandon_cnt (s : State) : (abandon s).cnt = 0 := rfl
@[simp] theorem abandon_frameErr (s : State) : (abandon s).frameErr = false := rfl
@[simp] theorem abandon_phase (s : State) : (abandon s).phase = .start := rfl
@[simp] theorem abandon_motaFwd (s : State) : (abandon s).motaFwd = s.motaFwd := rfl
@[simp] theorem abandon_motaDuty (s : State) : (abandon s).motaDuty = s.motaDuty := rfl
@[simp] theorem abandon_motbFwd (s : State) : (abandon s).motbFwd = s.motbFwd := rfl
@[simp] theorem abandon_motbDuty (s : State) : (abandon s).motbDuty = s.motbDuty := rfl
@[simp] theorem abandon_standby (s : State) : (abandon s).standby = s.standby := rfl
@[simp] theorem abandon_stimulus (s : State) : (abandon s).stimulus = s.stimulus := rfl
@[simp] theorem abandon_rangeIn (s : State) : (abandon s).rangeIn = s.rangeIn := rfl
@[simp] theorem abandon_resetDone (s : State) : (abandon s).resetDone = s.resetDone := rfl
@[simp] theorem abandon_stepEvents (s : State) : (abandon s).stepEvents = s.stepEvents := rfl
@[simp] theorem abandon_trace (s : State) : (abandon s).trace = s.trace := rfl

/-! ## halt -/

@[simp] theorem halt_params (s : State) : (halt s).params = s.params := rfl
@[simp] theorem halt_integral (s : State) : (halt s).integral = s.integral := rfl
@[simp] theorem halt_lastError (s : State) : (halt s).lastError = s.lastError := rfl
@[simp] theorem halt_errReg (s : State) : (halt s).errReg = s.errReg := rfl
@[simp] theorem halt_flag0 (s : State) : (halt s).flag0 = s.flag0 := rfl
@[simp] theorem halt_flag1 (s : State) : (halt s).flag1 = s.flag1 := rfl
@[simp] theorem halt_turnReg (s : State) : (halt s).turnReg = s.turnReg := rfl
@[simp] theorem halt_buf (s : State) : (halt s).buf = s.buf := rfl
@[simp] theorem halt_cnt (s : State) : (halt s).cnt = s.cnt := rfl
@[simp] theorem halt_frameErr (s : State) : (halt s).frameErr = s.frameErr := rfl
@[simp] theorem halt_phase (s : State) : (halt s).phase = .halted := rfl
@[simp] theorem halt_motaFwd (s : State) : (halt s).motaFwd = s.motaFwd := rfl
@[simp] theorem halt_motaDuty (s : State) : (halt s).motaDuty = s.motaDuty := rfl
@[simp] theorem halt_motbFwd (s : State) : (halt s).motbFwd = s.motbFwd := rfl
@[simp] theorem halt_motbDuty (s : State) : (halt s).motbDuty = s.motbDuty := rfl
@[simp] theorem halt_standby (s : State) : (halt s).standby = s.standby := rfl
@[simp] theorem halt_stimulus (s : State) : (halt s).stimulus = s.stimulus := rfl
@[simp] theorem halt_rangeIn (s : State) : (halt s).rangeIn = s.rangeIn := rfl
@[simp] theorem halt_resetDone (s : State) : (halt s).resetDone = s.resetDone := rfl
@[simp] theorem halt_stepEvents (s : State) : (halt s).stepEvents = s.stepEvents := rfl
@[simp] theorem halt_trace (s : State) : (halt s).trace = s.trace := rfl

/-! ## commitPid -/

@[simp] theorem commitPid_params (s : State) : (commitPid s).params = s.params := rfl
@[simp] theorem commitPid_integral (s : State) : (commitPid s).integral = integral32 s.errReg s.integral := rfl
@[simp] theorem commitPid_lastError (s : State) : (commitPid s).lastError = s.errReg := rfl
@[simp] theorem commitPid_errReg (s : State) : (commitPid s).errReg = s.errReg := rfl
@[simp] theorem commitPid_flag0 (s : State) : (commitPid s).flag0 = s.flag0 := rfl
@[simp] theorem commitPid_flag1 (s : State) : (commitPid s).flag1 = s.flag1 := rfl
@[simp] theorem commitPid_turnReg (s : State) : (commitPid s).turnReg = turn32 s.errReg s.integral s.lastError := rfl
@[simp] theorem commitPid_buf (s : State) : (commitPid s).buf = s.buf := rfl
@[simp] theorem commitPid_cnt (s : State) : (commitPid s).cnt = s.cnt := rfl
@[simp] theorem commitPid_frameErr (s : State) : (commitPid s).frameErr = s.frameErr := rfl
@[simp] theorem commitPid_phase (s : State) : (commitPid s).phase = .map := rfl
@[simp] theorem commitPid_motaFwd (s : State) : (commitPid s).motaFwd = s.motaFwd := rfl
@[simp] theorem commitPid_motaDuty (s : State) : (commitPid s).motaDuty = s.motaDuty := rfl
@[simp] theorem commitPid_motbFwd (s : State) : (commitPid s).motbFwd = s.motbFwd := rfl
@[simp] theorem commitPid_motbDuty (s : State) : (commitPid s).motbDuty = s.motbDuty := rfl
@[simp] theorem commitPid_standby (s : State) : (commitPid s).standby = s.standby := rfl
@[simp] theorem commitPid_stimulus (s : State) : (commitPid s).stimulus = s.stimulus := rfl
@[simp] theorem commitPid_rangeIn (s : State) : (commitPid s).rangeIn = s.rangeIn := rfl
@[simp] theorem commitPid_resetDone (s : State) : (commitPid s).resetDone = s.resetDone := rfl
@[simp] theorem commitPid_stepEvents (s : State) : (commitPid s).stepEvents = s.stepEvents := rfl
@[simp] theorem commitPid_trace (s : State) : (commitPid s).trace = s.trace := rfl

/-! ## commitDrive -/

@[simp] theorem commitDrive_params (fa : Bool) (da : Byte) (fb : Bool) (db : Byte) (g : Bool) (s : State) : (commitDrive fa da fb db g s).params = s.params := rfl
@[simp] theorem commitDrive_integral (fa : Bool) (da : Byte) (fb : Bool) (db : Byte) (g : Bool) (s : State) : (commitDrive fa da fb db g s).integral = s.integral := rfl
@[simp] theorem commitDrive_lastError (fa : Bool) (da : Byte) (fb : Bool) (db : Byte) (g : Bool) (s : State) : (commitDrive fa da fb db g s).lastError = s.lastError := rfl
@[simp] theorem commitDrive_errReg (fa : Bool) (da : Byte) (fb : Bool) (db : Byte) (g : Bool) (s : State) : (commitDrive fa da fb db g s).errReg = s.errReg := rfl
@[simp] theorem commitDrive_flag0 (fa : Bool) (da : Byte) (fb : Bool) (db : Byte) (g : Bool) (s : State) : (commitDrive fa da fb db g s).flag0 = s.flag0 := rfl
@[simp] theorem commitDrive_flag1 (fa : Bool) (da : Byte) (fb : Bool) (db : Byte) (g : Bool) (s : State) : (commitDrive fa da fb db g s).flag1 = s.flag1 := rfl
@[simp] theorem commitDrive_turnReg (fa : Bool) (da : Byte) (fb : Bool) (db : Byte) (g : Bool) (s : State) : (commitDrive fa da fb db g s).turnReg = s.turnReg := rfl
@[simp] theorem commitDrive_buf (fa : Bool) (da : Byte) (fb : Bool) (db : Byte) (g : Bool) (s : State) : (commitDrive fa da fb db g s).buf = s.buf := rfl
@[simp] theorem commitDrive_cnt (fa : Bool) (da : Byte) (fb : Bool) (db : Byte) (g : Bool) (s : State) : (commitDrive fa da fb db g s).cnt = s.cnt := rfl
@[simp] theorem commitDrive_frameErr (fa : Bool) (da : Byte) (fb : Bool) (db : Byte) (g : Bool) (s : State) : (commitDrive fa da fb db g s).frameErr = s.frameErr := rfl
@[simp] theorem commitDrive_phase (fa : Bool) (da : Byte) (fb : Bool) (db : Byte) (g : Bool) (s : State) : (commitDrive fa da fb db g s).phase = .start := rfl
@[simp] theorem commitDrive_motaFwd (fa : Bool) (da : Byte) (fb : Bool) (db : Byte) (g : Bool) (s : State) : (commitDrive fa da fb db g s).motaFwd = fa := rfl
@[simp] theorem commitDrive_motaDuty (fa : Bool) (da : Byte) (fb : Bool) (db : Byte) (g : Bool) (s : State) : (commitDrive fa da fb db g s).motaDuty = da := rfl
@[simp] theorem commitDrive_motbFwd (fa : Bool) (da : Byte) (fb : Bool) (db : Byte) (g : Bool) (s : State) : (commitDrive fa da fb db g s).motbFwd = fb := rfl
@[simp] theorem commitDrive_motbDuty (fa : Bool) (da : Byte) (fb : Bool) (db : Byte) (g : Bool) (s : State) : (commitDrive fa da fb db g s).motbDuty = db := rfl
@[simp] theorem commitDrive_standby (fa : Bool) (da : Byte) (fb : Bool) (db : Byte) (g : Bool) (s : State) : (commitDrive fa da fb db g s).standby = g := rfl
@[simp] theorem commitDrive_stimulus (fa : Bool) (da : Byte) (fb : Bool) (db : Byte) (g : Bool) (s : State) : (commitDrive fa da fb db g s).stimulus = s.stimulus := rfl
@[simp] theorem commitDrive_rangeIn (fa : Bool) (da : Byte) (fb : Bool) (db : Byte) (g : Bool) (s : State) : (commitDrive fa da fb db g s).rangeIn = s.rangeIn := rfl
@[simp] theorem commitDrive_resetDone (fa : Bool) (da : Byte) (fb : Bool) (db : Byte) (g : Bool) (s : State) : (commitDrive fa da fb db g s).resetDone = s.resetDone := rfl
@[simp] theorem commitDrive_stepEvents (fa : Bool) (da : Byte) (fb : Bool) (db : Byte) (g : Bool) (s : State) : (commitDrive fa da fb db g s).stepEvents = s.stepEvents ++ [.drive .a fa da] ++ [.drive .b fb db] := rfl
@[simp] theorem commitDrive_trace (fa : Bool) (da : Byte) (fb : Bool) (db : Byte) (g : Bool) (s : State) : (commitDrive fa da fb db g s).trace = s.trace ++ [.drive .a fa da] ++ [.drive .b fb db] := rfl

/-! ## commitStop -/

@[simp] theorem commitStop_params (s : State) : (commitStop s).params = s.params := rfl
@[simp] theorem commitStop_integral (s : State) : (commitStop s).integral = s.integral := rfl
@[simp] theorem commitStop_lastError (s : State) : (commitStop s).lastError = s.lastError := rfl
@[simp] theorem commitStop_errReg (s : State) : (commitStop s).errReg = s.errReg := rfl
@[simp] theorem commitStop_flag0 (s : State) : (commitStop s).flag0 = s.flag0 := rfl
@[simp] theorem commitStop_flag1 (s : State) : (commitStop s).flag1 = s.flag1 := rfl
@[simp] theorem commitStop_turnReg (s : State) : (commitStop s).turnReg = s.turnReg := rfl
@[simp] theorem commitStop_buf (s : State) : (commitStop s).buf = s.buf := rfl
@[simp] theorem commitStop_cnt (s : State) : (commitStop s).cnt = s.cnt := rfl
@[simp] theorem commitStop_frameErr (s : State) : (commitStop s).frameErr = s.frameErr := rfl
@[simp] theorem commitStop_phase (s : State) : (commitStop s).phase = .start := rfl
@[simp] theorem commitStop_motaFwd (s : State) : (commitStop s).motaFwd = s.motaFwd := rfl
@[simp] theorem commitStop_motaDuty (s : State) : (commitStop s).motaDuty = s.motaDuty := rfl
@[simp] theorem commitStop_motbFwd (s : State) : (commitStop s).motbFwd = s.motbFwd := rfl
@[simp] theorem commitStop_motbDuty (s : State) : (commitStop s).motbDuty = s.motbDuty := rfl
@[simp] theorem commitStop_standby (s : State) : (commitStop s).standby = true := rfl
@[simp] theorem commitStop_stimulus (s : State) : (commitStop s).stimulus = s.stimulus := rfl
@[simp] theorem commitStop_rangeIn (s : State) : (commitStop s).rangeIn = s.rangeIn := rfl
@[simp] theorem commitStop_resetDone (s : State) : (commitStop s).resetDone = s.resetDone := rfl
@[simp] theorem commitStop_stepEvents (s : State) : (commitStop s).stepEvents = s.stepEvents := rfl
@[simp] theorem commitStop_trace (s : State) : (commitStop s).trace = s.trace := rfl

/-! ## settle -/

@[simp] theorem settle_params (s : State) : (settle s).params = s.params := rfl
@[simp] theorem settle_integral (s : State) : (settle s).integral = s.integral := rfl
@[simp] theorem settle_lastError (s : State) : (settle s).lastError = s.lastError := rfl
@[simp] theorem settle_errReg (s : State) : (settle s).errReg = s.errReg := rfl
@[simp] theorem settle_flag0 (s : State) : (settle s).flag0 = s.flag0 := rfl
@[simp] theorem settle_flag1 (s : State) : (settle s).flag1 = s.flag1 := rfl
@[simp] theorem settle_turnReg (s : State) : (settle s).turnReg = s.turnReg := rfl
@[simp] theorem settle_buf (s : State) : (settle s).buf = s.buf := rfl
@[simp] theorem settle_cnt (s : State) : (settle s).cnt = s.cnt := rfl
@[simp] theorem settle_frameErr (s : State) : (settle s).frameErr = s.frameErr := rfl
@[simp] theorem settle_phase (s : State) : (settle s).phase = s.phase := rfl
@[simp] theorem settle_motaFwd (s : State) : (settle s).motaFwd = s.motaFwd := rfl
@[simp] theorem settle_motaDuty (s : State) : (settle s).motaDuty = s.motaDuty := rfl
@[simp] theorem settle_motbFwd (s : State) : (settle s).motbFwd = s.motbFwd := rfl
@[simp] theorem settle_motbDuty (s : State) : (settle s).motbDuty = s.motbDuty := rfl
@[simp] theorem settle_standby (s : State) : (settle s).standby = s.standby := rfl
@[simp] theorem settle_stimulus (s : State) : (settle s).stimulus = (settleRange s.stimulus s.rangeIn).1 := rfl
@[simp] theorem settle_rangeIn (s : State) : (settle s).rangeIn = (settleRange s.stimulus s.rangeIn).2 := rfl
@[simp] theorem settle_resetDone (s : State) : (settle s).resetDone = s.resetDone := rfl
@[simp] theorem settle_stepEvents (s : State) : (settle s).stepEvents = [] := rfl
@[simp] theorem settle_trace (s : State) : (settle s).trace = s.trace := rfl

/-! ## applyReset -/

@[simp] theorem applyReset_params (s : State) : (applyReset s).params = s.params := rfl
@[simp] theorem applyReset_integral (s : State) : (applyReset s).integral = 0 := rfl
@[simp] theorem applyReset_lastError (s : State) : (applyReset s).lastError = 0 := rfl
@[simp] theorem applyReset_errReg (s : State) : (applyReset s).errReg = 0 := rfl
@[simp] theorem applyReset_flag0 (s : State) : (applyReset s).flag0 = false := rfl
@[simp] theorem applyReset_flag1 (s : State) : (applyReset s).flag1 = false := rfl
@[simp] theorem applyReset_turnReg (s : State) : (applyReset s).turnReg = 0 := rfl
@[simp] theorem applyReset_buf (s : State) : (applyReset s).buf = [] := rfl
@[simp] theorem applyReset_cnt (s : State) : (applyReset s).cnt = 0 := rfl
@[simp] theorem applyReset_frameErr (s : State) : (applyReset s).frameErr = false := rfl
@[simp] theorem applyReset_phase (s : State) : (applyReset s).phase = .start := rfl
@[simp] theorem applyReset_motaFwd (s : State) : (applyReset s).motaFwd = true := rfl
@[simp] theorem applyReset_motaDuty (s : State) : (applyReset s).motaDuty = 0 := rfl
@[simp] theorem applyReset_motbFwd (s : State) : (applyReset s).motbFwd = true := rfl
@[simp] theorem applyReset_motbDuty (s : State) : (applyReset s).motbDuty = 0 := rfl
@[simp] theorem applyReset_standby (s : State) : (applyReset s).standby = true := rfl
@[simp] theorem applyReset_stimulus (s : State) : (applyReset s).stimulus = s.stimulus.tail := rfl
@[simp] theorem applyReset_rangeIn (s : State) : (applyReset s).rangeIn = s.rangeIn := rfl
@[simp] theorem applyReset_resetDone (s : State) : (applyReset s).resetDone = true := rfl
@[simp] theorem applyReset_stepEvents (s : State) : (applyReset s).stepEvents = [] := rfl
@[simp] theorem applyReset_trace (s : State) : (applyReset s).trace = s.trace := rfl

/-! ## takeEvent: the stimulus only -/

@[simp] theorem takeEvent_params (s : State) : (takeEvent s).params = s.params := by
  unfold takeEvent; split <;> [rfl; (split <;> rfl)]
@[simp] theorem takeEvent_integral (s : State) : (takeEvent s).integral = s.integral := by
  unfold takeEvent; split <;> [rfl; (split <;> rfl)]
@[simp] theorem takeEvent_lastError (s : State) : (takeEvent s).lastError = s.lastError := by
  unfold takeEvent; split <;> [rfl; (split <;> rfl)]
@[simp] theorem takeEvent_errReg (s : State) : (takeEvent s).errReg = s.errReg := by
  unfold takeEvent; split <;> [rfl; (split <;> rfl)]
@[simp] theorem takeEvent_flag0 (s : State) : (takeEvent s).flag0 = s.flag0 := by
  unfold takeEvent; split <;> [rfl; (split <;> rfl)]
@[simp] theorem takeEvent_flag1 (s : State) : (takeEvent s).flag1 = s.flag1 := by
  unfold takeEvent; split <;> [rfl; (split <;> rfl)]
@[simp] theorem takeEvent_turnReg (s : State) : (takeEvent s).turnReg = s.turnReg := by
  unfold takeEvent; split <;> [rfl; (split <;> rfl)]
@[simp] theorem takeEvent_buf (s : State) : (takeEvent s).buf = s.buf := by
  unfold takeEvent; split <;> [rfl; (split <;> rfl)]
@[simp] theorem takeEvent_cnt (s : State) : (takeEvent s).cnt = s.cnt := by
  unfold takeEvent; split <;> [rfl; (split <;> rfl)]
@[simp] theorem takeEvent_frameErr (s : State) : (takeEvent s).frameErr = s.frameErr := by
  unfold takeEvent; split <;> [rfl; (split <;> rfl)]
@[simp] theorem takeEvent_phase (s : State) : (takeEvent s).phase = s.phase := by
  unfold takeEvent; split <;> [rfl; (split <;> rfl)]
@[simp] theorem takeEvent_motaFwd (s : State) : (takeEvent s).motaFwd = s.motaFwd := by
  unfold takeEvent; split <;> [rfl; (split <;> rfl)]
@[simp] theorem takeEvent_motaDuty (s : State) : (takeEvent s).motaDuty = s.motaDuty := by
  unfold takeEvent; split <;> [rfl; (split <;> rfl)]
@[simp] theorem takeEvent_motbFwd (s : State) : (takeEvent s).motbFwd = s.motbFwd := by
  unfold takeEvent; split <;> [rfl; (split <;> rfl)]
@[simp] theorem takeEvent_motbDuty (s : State) : (takeEvent s).motbDuty = s.motbDuty := by
  unfold takeEvent; split <;> [rfl; (split <;> rfl)]
@[simp] theorem takeEvent_standby (s : State) : (takeEvent s).standby = s.standby := by
  unfold takeEvent; split <;> [rfl; (split <;> rfl)]
@[simp] theorem takeEvent_rangeIn (s : State) : (takeEvent s).rangeIn = s.rangeIn := by
  unfold takeEvent; split <;> [rfl; (split <;> rfl)]
@[simp] theorem takeEvent_resetDone (s : State) : (takeEvent s).resetDone = s.resetDone := by
  unfold takeEvent; split <;> [rfl; (split <;> rfl)]
@[simp] theorem takeEvent_stepEvents (s : State) : (takeEvent s).stepEvents = s.stepEvents := by
  unfold takeEvent; split <;> [rfl; (split <;> rfl)]
@[simp] theorem takeEvent_trace (s : State) : (takeEvent s).trace = s.trace := by
  unfold takeEvent; split <;> [rfl; (split <;> rfl)]

/-- A taken event is gone, an event that is not taken stays. -/
theorem takeEvent_stimulus_cons (s : State) (e : EnvEvent) (rest : List EnvEvent) (h : s.stimulus = e :: rest) :
    (takeEvent s).stimulus = if takes s e then rest else e :: rest := by
  unfold takeEvent
  rw [h]
  dsimp only
  split <;> simp [h]

@[simp] theorem takeEvent_stimulus_nil (s : State) (h : s.stimulus = []) : (takeEvent s).stimulus = [] := by
  unfold takeEvent
  rw [h]
  exact h

end Sys2Proof.Machine
end

