-- ==== Sys2Proof/Laws/Ops.lean ====
section
/-! SUPPORT. What each shared operation can do. -/

namespace Sys2Proof.Machine

/-- `thenNext` answers a next state only from a next state. -/
theorem thenNext_eq_next (o : Host.Outcome State Fault Refusal) (f : State → State) (t : State)
    (h : thenNext o f = .next t) : ∃ s, o = .next s ∧ t = f s := by
  cases o with
  | next s => exact ⟨s, rfl, by simpa [thenNext] using h.symm⟩
  | fault r => simp [thenNext] at h
  | refused r => simp [thenNext] at h

@[simp] theorem thenNext_next (s : State) (f : State → State) : thenNext (.next s) f = .next (f s) := rfl

@[simp] theorem thenNext_fault (r : Fault) (f : State → State) : thenNext (.fault r) f = .fault r := rfl

/-- A buffer write answers a next state exactly at the indices that exist, and then only `buf` is new. -/
theorem memWrite_eq_next (k : Nat) (v : Byte) (s t : State) (h : memWrite k v s = .next t) :
    k < 74 ∧ t = { s with buf := Memory.write s.buf k v } := by
  by_cases hk : k < 74
  · rw [memWrite_next k v s hk] at h
    cases h
    exact ⟨hk, rfl⟩
  · rw [memWrite_no_such_byte k v s (by omega)] at h
    cases h

/-- A fault report under HOLD leaves `standby` as it was, under ASSERT it sets it (60_exceptions.md R102). -/
theorem standbyAfterFault_eq (s : State) :
    standbyAfterFault s = (if s.params.faultStandby = .assert then true else s.standby) := by
  unfold standbyAfterFault
  cases s.params.faultStandby <;> rfl

/-- A reported fault that abandons the cycle: the whole new state. -/
theorem faultAndAbandon_eq (st : Stage) (s : State) :
    faultAndAbandon st s =
      { s with standby := standbyAfterFault s, phase := .start, cnt := 0, frameErr := false,
               stepEvents := s.stepEvents ++ [.fault st], trace := s.trace ++ [.fault st] } := rfl

theorem stage_ofCode_code (st : Stage) : Stage.ofCode st.code = some st := by cases st <;> decide

theorem memRead_eq (s : State) (k : Fin 74) : memRead s k = Memory.read s.buf k.val := rfl

end Sys2Proof.Machine
end

