-- ==== Sys2Proof/Laws/Exec.lean ====
section
/-! SUPPORT. The outcome of each operation in one equation, and the two operations' stops: later proofs cite these and
unfold no meaning. -/

namespace Sys2Proof.Machine

/-! ## The synchronizer -/

theorem exec_fsTrig (s : State) :
    exec .fsTrig s = .next { emit (.tx 0x30) s with cnt := 0, phase := .recv } := rfl

theorem exec_fsHunt (s : State) : exec .fsHunt s = .next { s with phase := .hunt } := rfl

/-- FS.FIXB on an index that exists (41_frame_sync.md R72). -/
theorem exec_fsFixb (b : Byte) (s : State) (h : s.cnt.toNat < 74) :
    exec (.fsFixb b) s =
      .next (if s.cnt.toNat = 4
        then { s with buf := Memory.write s.buf s.cnt.toNat b, cnt := 0, phase := .decode }
        else { s with buf := Memory.write s.buf s.cnt.toNat b, cnt := s.cnt + 1, phase := .recv }) := by
  simp only [exec, execFsFixb, memWrite_next _ _ _ h, thenNext_next, afterFixedByte]
  rfl

theorem exec_fsFixb_no_such_byte (b : Byte) (s : State) (h : 74 ≤ s.cnt.toNat) :
    exec (.fsFixb b) s = .fault .noSuchByte := by
  simp only [exec, execFsFixb, memWrite_no_such_byte _ _ _ h, thenNext_fault]

theorem exec_fsFixf (s : State) : exec .fsFixf s = .next (faultAndAbandon .read s) := rfl

theorem exec_fsSent (s : State) :
    exec .fsSent s = .next { s with cnt := 0, frameErr := false, phase := .body } := rfl

theorem exec_fsSkip (b : Byte) (s : State) : exec (.fsSkip b) s = .next { s with phase := .hunt } := rfl

theorem exec_fsHuntf (s : State) : exec .fsHuntf s = .next (faultAndAbandon .read s) := rfl

/-- FS.BODYB on an index that exists (R78). -/
theorem exec_fsBodyb (b : Byte) (s : State) (h : s.cnt.toNat < 74) :
    exec (.fsBodyb b) s =
      .next (if s.cnt.toNat < 73
        then { s with buf := Memory.write s.buf s.cnt.toNat b, cnt := s.cnt + 1, phase := .body }
        else if s.frameErr = false
          then { s with buf := Memory.write s.buf s.cnt.toNat b, cnt := 0, phase := .decode }
          else abandon { s with buf := Memory.write s.buf s.cnt.toNat b }) := by
  simp only [exec, execFsBodyb, memWrite_next _ _ _ h, thenNext_next, afterBodyByte]
  rfl

theorem exec_fsBodyb_no_such_byte (b : Byte) (s : State) (h : 74 ≤ s.cnt.toNat) :
    exec (.fsBodyb b) s = .fault .noSuchByte := by
  simp only [exec, execFsBodyb, memWrite_no_such_byte _ _ _ h, thenNext_fault]

/-- FS.BODYF on an index that exists (R79). -/
theorem exec_fsBodyf (s : State) (h : s.cnt.toNat < 74) :
    exec .fsBodyf s =
      .next (if s.cnt.toNat < 73
        then { raiseFault .read s with
               buf := Memory.write s.buf s.cnt.toNat 0, cnt := s.cnt + 1, frameErr := true, phase := .body }
        else abandon { raiseFault .read s with buf := Memory.write s.buf s.cnt.toNat 0 }) := by
  simp only [exec, execFsBodyf, memWrite_next _ _ _ h, thenNext_next, afterFailedBodyByte,
    raiseFault_buf, raiseFault_cnt]
  rfl

theorem exec_fsBodyf_no_such_byte (s : State) (h : 74 ≤ s.cnt.toNat) : exec .fsBodyf s = .fault .noSuchByte := by
  simp only [exec, execFsBodyf, memWrite_no_such_byte _ _ _ h, thenNext_fault]

/-! ## The decoder -/

theorem exec_decRaw (s : State) :
    exec .decRaw s = .next { s with
      errReg := wrap32 (rawError s), flag0 := directionFlag (memRead s 0), flag1 := directionFlag (memRead s 1),
      phase := .pid } := rfl

theorem exec_decStr (s : State) :
    exec .decStr s = .next (commitStructured (Config.structDecode (frameBody s)) s) := rfl

theorem commitStructured_none (s : State) : commitStructured none s = faultAndAbandon .decode s := rfl

theorem commitStructured_some (r : StructRecord) (s : State) :
    commitStructured (some r) s =
      { s with errReg := r.error, flag0 := r.flag0, flag1 := r.flag1, phase := .pid } := rfl

/-! ## The controller and the mapper -/

/-- PID.STEP either halts, only under HALT and on overflow, or commits (43_pid.md R84, R86). -/
theorem exec_pidStep (m : FrameMode) (s : State) :
    exec (.pidStep m) s =
      .next (if s.params.arithOverflow = .halt ∧ pidOverflows s.errReg s.integral s.lastError = true
        then halt s else commitPid s) := by
  simp only [exec, execPidStep]
  cases s.params.arithOverflow <;> simp

theorem exec_mapDrv_drive (m : FrameMode) (s : State) (fa fb : Bool) (h : directions s.flag0 s.flag1 = some (fa, fb)) :
    exec (.mapDrv m) s =
      .next (commitDrive fa (rightDuty s.params.baseSpeed s.turnReg) fb (leftDuty s.params.baseSpeed s.turnReg)
        (rangeGate s.rangeIn) s) := by
  simp only [exec, execMapDrv, h]

theorem exec_mapDrv_stop (m : FrameMode) (s : State) (h : directions s.flag0 s.flag1 = none) :
    exec (.mapDrv m) s = .next (commitStop s) := by
  simp only [exec, execMapDrv, h]

/-! ## When an operation answers a next state -/

/-- Only the three storing operations can stop, and only past the buffer's end (20_memory.md R41). -/
theorem exec_answers_next (i : Instr) (s : State) (h : s.cnt.toNat < 74) : ∃ t, exec i s = .next t := by
  cases i with
  | fsFixb b => exact ⟨_, exec_fsFixb b s h⟩
  | fsBodyb b => exact ⟨_, exec_fsBodyb b s h⟩
  | fsBodyf => exact ⟨_, exec_fsBodyf s h⟩
  | fsTrig => exact ⟨_, exec_fsTrig s⟩
  | fsHunt => exact ⟨_, exec_fsHunt s⟩
  | fsFixf => exact ⟨_, exec_fsFixf s⟩
  | fsSent => exact ⟨_, exec_fsSent s⟩
  | fsSkip b => exact ⟨_, exec_fsSkip b s⟩
  | fsHuntf => exact ⟨_, exec_fsHuntf s⟩
  | decRaw => exact ⟨_, exec_decRaw s⟩
  | decStr => exact ⟨_, exec_decStr s⟩
  | pidStep m => exact ⟨_, exec_pidStep m s⟩
  | mapDrv m =>
    cases hd : directions s.flag0 s.flag1 with
    | none => exact ⟨_, exec_mapDrv_stop m s hd⟩
    | some d => exact ⟨_, exec_mapDrv_drive m s d.1 d.2 hd⟩

end Sys2Proof.Machine
end

