-- ==== Sys2Proof/Laws/Effect.lean ====
section
/-! SUPPORT. Everything an operation can do, said once: `Effect i s t` lists the next states of every operation, and
`exec_effect` says that a next state of `exec` is one of them. Invariants and frames are proved by cases on it. -/

namespace Sys2Proof.Machine

/-- The next states of each operation, with the condition each is taken under. -/
inductive Effect : Instr → State → State → Prop
  | fsTrig (s : State) : Effect .fsTrig s { emit (.tx 0x30) s with cnt := 0, phase := .recv }
  | fsHunt (s : State) : Effect .fsHunt s { s with phase := .hunt }
  | fsFixbLast (b : Byte) (s : State) (h : s.cnt.toNat = 4) :
      Effect (.fsFixb b) s { s with buf := Memory.write s.buf s.cnt.toNat b, cnt := 0, phase := .decode }
  | fsFixbMore (b : Byte) (s : State) (h : s.cnt.toNat ≠ 4) (hc : s.cnt.toNat < 74) :
      Effect (.fsFixb b) s { s with buf := Memory.write s.buf s.cnt.toNat b, cnt := s.cnt + 1, phase := .recv }
  | fsFixf (s : State) : Effect .fsFixf s (faultAndAbandon .read s)
  | fsSent (s : State) : Effect .fsSent s { s with cnt := 0, frameErr := false, phase := .body }
  | fsSkip (b : Byte) (s : State) : Effect (.fsSkip b) s { s with phase := .hunt }
  | fsHuntf (s : State) : Effect .fsHuntf s (faultAndAbandon .read s)
  | fsBodybMore (b : Byte) (s : State) (h : s.cnt.toNat < 73) :
      Effect (.fsBodyb b) s { s with buf := Memory.write s.buf s.cnt.toNat b, cnt := s.cnt + 1, phase := .body }
  | fsBodybLast (b : Byte) (s : State) (h : s.cnt.toNat = 73) (he : s.frameErr = false) :
      Effect (.fsBodyb b) s { s with buf := Memory.write s.buf s.cnt.toNat b, cnt := 0, phase := .decode }
  | fsBodybDamaged (b : Byte) (s : State) (h : s.cnt.toNat = 73) (he : s.frameErr = true) :
      Effect (.fsBodyb b) s (abandon { s with buf := Memory.write s.buf s.cnt.toNat b })
  | fsBodyfMore (s : State) (h : s.cnt.toNat < 73) :
      Effect .fsBodyf s { raiseFault .read s with
        buf := Memory.write s.buf s.cnt.toNat 0, cnt := s.cnt + 1, frameErr := true, phase := .body }
  | fsBodyfLast (s : State) (h : s.cnt.toNat = 73) :
      Effect .fsBodyf s (abandon { raiseFault .read s with buf := Memory.write s.buf s.cnt.toNat 0 })
  | decRaw (s : State) :
      Effect .decRaw s { s with
        errReg := wrap32 (rawError s), flag0 := directionFlag (memRead s 0), flag1 := directionFlag (memRead s 1),
        phase := .pid }
  | decStrFail (s : State) (h : Config.structDecode (frameBody s) = none) :
      Effect .decStr s (faultAndAbandon .decode s)
  | decStrRecord (s : State) (r : StructRecord) (h : Config.structDecode (frameBody s) = some r) :
      Effect .decStr s { s with errReg := r.error, flag0 := r.flag0, flag1 := r.flag1, phase := .pid }
  | pidHalt (m : FrameMode) (s : State) (h : s.params.arithOverflow = .halt)
      (ho : pidOverflows s.errReg s.integral s.lastError = true) : Effect (.pidStep m) s (halt s)
  | pidCommit (m : FrameMode) (s : State)
      (h : ¬ (s.params.arithOverflow = .halt ∧ pidOverflows s.errReg s.integral s.lastError = true)) :
      Effect (.pidStep m) s (commitPid s)
  | mapDrive (m : FrameMode) (s : State) (h : s.flag0 = true ∨ s.flag1 = true) :
      Effect (.mapDrv m) s
        (commitDrive s.flag0 (rightDuty s.params.baseSpeed s.turnReg) s.flag1
          (leftDuty s.params.baseSpeed s.turnReg) (rangeGate s.rangeIn) s)
  | mapStop (m : FrameMode) (s : State) (h0 : s.flag0 = false) (h1 : s.flag1 = false) :
      Effect (.mapDrv m) s (commitStop s)

/-- A next state of `exec` is one of the operation's effects. -/
theorem exec_effect (i : Instr) (s t : State) (h : exec i s = .next t) : Effect i s t := by
  cases i with
  | fsTrig => cases h; exact .fsTrig s
  | fsHunt => cases h; exact .fsHunt s
  | fsFixb b =>
    by_cases hc : s.cnt.toNat < 74
    · rw [exec_fsFixb b s hc] at h
      split at h <;> cases h
      next h4 => exact .fsFixbLast b s h4
      next h4 => exact .fsFixbMore b s h4 hc
    · rw [exec_fsFixb_no_such_byte b s (by omega)] at h
      cases h
  | fsFixf => cases h; exact .fsFixf s
  | fsSent => cases h; exact .fsSent s
  | fsSkip b => cases h; exact .fsSkip b s
  | fsHuntf => cases h; exact .fsHuntf s
  | fsBodyb b =>
    by_cases hc : s.cnt.toNat < 74
    · rw [exec_fsBodyb b s hc] at h
      split at h
      next hlt => cases h; exact .fsBodybMore b s hlt
      next hge =>
        split at h <;> cases h
        next he => exact .fsBodybLast b s (by omega) he
        next he => exact .fsBodybDamaged b s (by omega) (by simpa using he)
    · rw [exec_fsBodyb_no_such_byte b s (by omega)] at h
      cases h
  | fsBodyf =>
    by_cases hc : s.cnt.toNat < 74
    · rw [exec_fsBodyf s hc] at h
      split at h <;> cases h
      next hlt => exact .fsBodyfMore s hlt
      next hge => exact .fsBodyfLast s (by omega)
    · rw [exec_fsBodyf_no_such_byte s (by omega)] at h
      cases h
  | decRaw => cases h; exact .decRaw s
  | decStr =>
    rw [exec_decStr] at h
    cases hd : Config.structDecode (frameBody s) with
    | none => rw [hd] at h; cases h; exact .decStrFail s hd
    | some r => rw [hd] at h; cases h; exact .decStrRecord s r hd
  | pidStep m =>
    rw [exec_pidStep] at h
    split at h <;> cases h
    next ho => exact .pidHalt m s ho.1 ho.2
    next ho => exact .pidCommit m s ho
  | mapDrv m =>
    by_cases hf : s.flag0 = true ∨ s.flag1 = true
    · rw [exec_mapDrv_drive m s _ _ (directions_eq_some _ _ hf)] at h
      cases h
      exact .mapDrive m s hf
    · have hf' : s.flag0 = false ∧ s.flag1 = false := by simpa using hf
      rw [exec_mapDrv_stop m s ((directions_eq_none _ _).2 hf')] at h
      cases h
      exact .mapStop m s hf'.1 hf'.2

end Sys2Proof.Machine
end

