-- ==== Sys2Proof/Laws/PerInstr.lean ====
section
/-! SUPPORT. Per-instruction lemmas about the encoder: the key an instruction is encoded to is one that its own row of the
opcode map accepts (30_encoding.md R62). -/

namespace Sys2Proof.Laws.EncodeRow

/-- Every row of the instruction's operation accepts its key. -/
def Statement (i : Instr) : Prop := ∀ r ∈ rows, r.op = i.op → r.accepts (encode i) = true

theorem fsTrig : Statement .fsTrig := by unfold Statement; decide

theorem fsHunt : Statement .fsHunt := by unfold Statement; decide

theorem fsFixb (b : Byte) : Statement (.fsFixb b) := by
  revert b; unfold Statement; decide +kernel

theorem fsFixf : Statement .fsFixf := by unfold Statement; decide

theorem fsSent : Statement .fsSent := by unfold Statement; decide

theorem fsSkip (b : Byte) : Statement (.fsSkip b) := by
  revert b; unfold Statement; decide +kernel

theorem fsHuntf : Statement .fsHuntf := by unfold Statement; decide

theorem fsBodyb (b : Byte) : Statement (.fsBodyb b) := by
  revert b; unfold Statement; decide +kernel

theorem fsBodyf : Statement .fsBodyf := by unfold Statement; decide

theorem decRaw : Statement .decRaw := by unfold Statement; decide

theorem decStr : Statement .decStr := by unfold Statement; decide

theorem pidStep (m : FrameMode) : Statement (.pidStep m) := by
  cases m <;> (unfold Statement; decide)

theorem mapDrv (m : FrameMode) : Statement (.mapDrv m) := by
  cases m <;> (unfold Statement; decide)

end Sys2Proof.Laws.EncodeRow
end

