-- ==== Sys2Proof/Laws/Ports.lean ====
section
/-! SUPPORT. What each output event shows on the strobes (10_state.md R37, R38), and the calls a change of `standby`
makes. -/

namespace Sys2Proof.Machine

@[simp] theorem stage_tx (b : Byte) : (OutEvent.tx b).stage? = none := rfl
@[simp] theorem stage_drive (m : Motor) (f : Bool) (d : Byte) : (OutEvent.drive m f d).stage? = none := rfl
@[simp] theorem stage_fault (st : Stage) : (OutEvent.fault st).stage? = some st := rfl

@[simp] theorem drives_tx (m : Motor) (b : Byte) : OutEvent.drives m (.tx b) = false := rfl
@[simp] theorem drives_drive (m n : Motor) (f : Bool) (d : Byte) : OutEvent.drives m (.drive n f d) = (m == n) := rfl
@[simp] theorem drives_fault (m : Motor) (st : Stage) : OutEvent.drives m (.fault st) = false := rfl

/-- The enable call is the rise of `standby`. -/
theorem standbyCall_enable (s t : State) :
    standbyCall s t = some .enableStandby ↔ s.standby = false ∧ t.standby = true := by
  unfold standbyCall
  cases s.standby <;> cases t.standby <;> simp

/-- The disable call is the fall of `standby`. -/
theorem standbyCall_disable (s t : State) :
    standbyCall s t = some .disableStandby ↔ s.standby = true ∧ t.standby = false := by
  unfold standbyCall
  cases s.standby <;> cases t.standby <;> simp

end Sys2Proof.Machine
end

