-- ==== Sys2Proof/Laws/Step.lean ====
section
/-! SUPPORT. Everything one step can do, said once, and the settled stimulus. -/

namespace Sys2Proof.Machine

/-! ## Settling -/

/-- No RANGE line stands at the head of a settled stimulus. -/
theorem settleRange_head (evs : List EnvEvent) (r : Half) (n : Half) (rest : List EnvEvent) :
    (settleRange evs r).1 ≠ .range n :: rest := by
  induction evs generalizing r with
  | nil => simp [settleRange]
  | cons e evs ih => cases e <;> simp [settleRange, ih]

theorem settleRange_settled (evs : List EnvEvent) (r r' : Half) :
    settleRange (settleRange evs r).1 r' = ((settleRange evs r).1, r') := by
  induction evs generalizing r with
  | nil => rfl
  | cons e evs ih => cases e <;> simp [settleRange, ih]

@[simp] theorem offered_settle (s : State) : offered (settle s) = offered s := by
  simp [offered, settleRange_settled]

@[simp] theorem rst_settle (s : State) : rst (settle s) = rst s := by simp [rst]

@[simp] theorem txReady_settle (s : State) : txReady (settle s) = txReady s := by simp [txReady]

/-- What a settled state offers is the head of its stimulus. -/
theorem offered_settled (s : State) : offered (settle s) = (settle s).stimulus.head? := by
  simp [offered, settleRange_settled]

/-! ## The keys formed -/

@[simp] theorem formKey_settle (s : State) : formKey (settle s) = formKey s := by
  simp only [formKey, receiveKey, internalKey, offered_settle, txReady_settle, settle_phase, settle_params]

/-- A key is formed in no other phase or mode than its own, and the only keys refused are those of a phase the mode does
not have (30_encoding.md R61, R64 (f)). -/
theorem formed_key_error (s : State) (k : Key) (c : KeyReject) (hk : formKey s = some k)
    (hc : decode k = .error c) : c = .unreachablePhase := by
  unfold formKey receiveKey internalKey at hk
  rcases hp : s.phase <;> rcases hm : s.params.frameMode <;> simp only [hp, hm] at hk
  all_goals first
    | (cases hk; done)
    | (split at hk <;> first | (cases hk; done) | skip)
    | skip
  all_goals
    (obtain rfl := Option.some.inj hk)
    simp only [decode_start_accepted, decode_start_delimited, decode_recv_byte, decode_recv_failed, decode_hunt_byte,
      decode_hunt_failed, decode_body_byte, decode_body_failed, decode_decode, decode_pid, decode_map,
      decode_recv_delimited_byte, decode_recv_delimited_failed, decode_hunt_fixed_byte, decode_hunt_fixed_failed,
      decode_body_fixed_byte, decode_body_fixed_failed] at hc
  all_goals (cases hc <;> rfl)

/-! ## One step -/

/-- Everything a step that answers a next state can have been: a step of `rst`, a wait, or one operation. -/
theorem step_cases (s t : State) (h : step s = .next t) :
    (rst s = true ∧ t = applyReset (settle s)) ∨
    (rst s = false ∧ s.resetDone = true ∧ s.phase ≠ .halted ∧ formKey s = none ∧ t = takeEvent (settle s)) ∨
    (rst s = false ∧ s.resetDone = true ∧ s.phase ≠ .halted ∧
      ∃ k i, formKey s = some k ∧ decode k = .ok i ∧ exec i (takeEvent (settle s)) = .next t) := by
  unfold step runSettled operate at h
  simp only [rst_settle, settle_resetDone, settle_phase, formKey_settle] at h
  split at h
  next hr => cases h; exact .inl ⟨hr, rfl⟩
  next hr =>
    have hr' : rst s = false := by simpa using hr
    split at h
    next hd =>
      split at h
      next => cases h
      next hp =>
        split at h
        next hk => cases h; exact .inr (.inl ⟨hr', hd, hp, hk, rfl⟩)
        next k hk =>
          split at h
          next i hi => exact .inr (.inr ⟨hr', hd, hp, k, i, hk, hi, h⟩)
          next c hc =>
            rw [formed_key_error s k c hk hc] at h
            simp [rejectKey, KeyReject.treatment] at h
    next => cases h

/-- A step that runs an operation runs the decoded one. -/
theorem step_of_key (s : State) (k : Key) (i : Instr) (hr : rst s = false) (hd : s.resetDone = true)
    (hk : formKey s = some k) (hi : decode k = .ok i) : step s = exec i (takeEvent (settle s)) := by
  have hp : s.phase ≠ .halted := by
    intro e
    simp [formKey, e] at hk
  simp [step, runSettled, operate, hr, hd, hp, hk, hi]

theorem step_of_rst (s : State) (hr : rst s = true) : step s = .next (applyReset (settle s)) := by
  simp [step, runSettled, hr]

theorem step_of_wait (s : State) (hr : rst s = false) (hd : s.resetDone = true) (hp : s.phase ≠ .halted)
    (hk : formKey s = none) : step s = .next (takeEvent (settle s)) := by
  simp [step, runSettled, operate, hr, hd, hp, hk]

end Sys2Proof.Machine
end

