-- ==== Sys2Proof/Laws/Text.lean ====
section
/-! SUPPORT. Decimal literals are written whole, whatever their size (00_scope.md R9). -/

namespace Sys2Proof.Machine

/-- Fuel beyond the number's value changes nothing. -/
theorem decimalDigits_fuel (fuel n : Nat) (h : n < fuel) : decimalDigits fuel n = decimalText n := by
  unfold decimalText
  induction n using Nat.strong_induction_on generalizing fuel with
  | _ n ih =>
    obtain ⟨f, rfl⟩ : ∃ f, fuel = f + 1 := ⟨fuel - 1, by omega⟩
    simp only [decimalDigits]
    by_cases h0 : n / 10 = 0
    · simp [h0]
    · have hlt : n / 10 < n := by omega
      rw [if_neg h0, if_neg h0, ih _ hlt f (by omega), ih _ hlt n hlt]

theorem decimalText_digit (n : Nat) (h : n < 10) : decimalText n = [hexDigit n] := by
  simp [decimalText, decimalDigits, Nat.div_eq_of_lt h, Nat.mod_eq_of_lt h]

/-- A number of two digits or more is written as its tenth, then its last digit. -/
theorem decimalText_step (n : Nat) (h : 10 ≤ n) : decimalText n = decimalText (n / 10) ++ [hexDigit (n % 10)] := by
  rw [decimalText, decimalDigits, if_neg (by omega), decimalDigits_fuel n (n / 10) (by omega)]

end Sys2Proof.Machine
end

