-- ==== Sys2Proof/Tests/Slice0.lean ====
section
/-! SUPPORT. The model's own tests. Expected results come from spec/: the encodings of 30_encoding.md R62, and the
vectors of 95_test_vectors.md, whose name stands in each comment. The last part shows, for every statement with
hypotheses, concrete states and operands that meet them. -/

namespace Sys2Proof.Tests

open Sys2Proof.Machine Sys2Proof.Claims

/-! ## Helpers -/

/-- The block of 95_test_vectors.md right after reset: BASE_SPEED 50, ASSERT, WRAP, range 2500. -/
def block (m : FrameMode) : State := State.resetWith ⟨m, 50, .assert, .wrap⟩ 2500

/-- The same with the events `evs` coming. -/
def offering (m : FrameMode) (evs : List EnvEvent) : State := { block m with stimulus := evs }

/-- The same in phase `p` with counter `c`. -/
def inPhase (m : FrameMode) (p : Phase) (c : Count) : State := { block m with phase := p, cnt := c }

/-- The same with ControlState `{i, l}`, error `e`, in phase PID. -/
def beforePid (o : ArithOverflow) (i l e : Int) : State :=
  { State.resetWith ⟨.fixed, 50, .assert, o⟩ 2500 with
    phase := .pid, integral := wrap32 i, lastError := wrap32 l, errReg := wrap32 e }

/-- The same with a turn, flags, a base speed and a range, in phase MAP, standby disengaged. -/
def beforeMap (base : Byte) (turn : Int) (f0 f1 : Bool) (range : Half) : State :=
  { State.resetWith ⟨.fixed, base, .assert, .wrap⟩ range with
    phase := .map, turnReg := wrap32 turn, flag0 := f0, flag1 := f1, standby := false, motaDuty := 7, motbDuty := 9 }

/-- A reading of the next state, if there is one. -/
def after {α : Type} (o : Host.Outcome State Fault Refusal) (f : State → α) : Option α :=
  match o with
  | .next t => some (f t)
  | .fault _ => none
  | .refused _ => none

/-- The test fixture TD of 95_test_vectors.md, which is no claim about any deployment. -/
def TD : StructDecode := fun b =>
  if b 0 = 0x45 then some ⟨(b 1).signExtend 32, b 2 == 0x31, b 3 == 0x31⟩ else none

/-! ## WellFormed -/

/-- R62 row 6: FS.SKIP does not carry 0x7B. It is the one ill-formed instruction. -/
theorem test_skip_of_the_sentinel_is_ill_formed : Instr.wellFormed (.fsSkip 0x7B) = false := by decide

theorem test_skip_of_a_neighbour_is_well_formed :
    Instr.wellFormed (.fsSkip 0x7A) = true ∧ Instr.wellFormed (.fsSkip 0x7C) = true := by decide

/-! ## Decoding: keys written out bit by bit from the encoding column of R62 -/

theorem test_decode_fsTrig : decode 0b0000110000000000 = .ok .fsTrig := by decide
theorem test_decode_fsHunt : decode 0b1000000000000000 = .ok .fsHunt := by decide
theorem test_decode_fsFixb : decode 0b0001010000110000 = .ok (.fsFixb 0x30) := by decide
theorem test_decode_fsFixf : decode 0b0001100000000000 = .ok .fsFixf := by decide
theorem test_decode_fsSent : decode 0b1010010001111011 = .ok .fsSent := by decide
theorem test_decode_fsSkip : decode 0b1010010001000001 = .ok (.fsSkip 0x41) := by decide
theorem test_decode_fsHuntf : decode 0b1010100000000000 = .ok .fsHuntf := by decide
theorem test_decode_fsBodyb : decode 0b1011010010000001 = .ok (.fsBodyb 0x81) := by decide
theorem test_decode_fsBodyf : decode 0b1011100000000000 = .ok .fsBodyf := by decide
theorem test_decode_decRaw : decode 0b0100000000000000 = .ok .decRaw := by decide
theorem test_decode_decStr : decode 0b1100000000000000 = .ok .decStr := by decide
theorem test_decode_pidStep :
    decode 0b0101000000000000 = .ok (.pidStep .fixed) ∧ decode 0b1101000000000000 = .ok (.pidStep .delimited) := by
  decide
theorem test_decode_mapDrv :
    decode 0b0110000000000000 = .ok (.mapDrv .fixed) ∧ decode 0b1110000000000000 = .ok (.mapDrv .delimited) := by
  decide

/-- One key of each class of R64, in its order (a) to (f). -/
theorem test_reject_classes :
    decode 0b0000110000000001 = .error .malformed ∧ decode 0b0000111000000000 = .error .malformed ∧
    decode 0b0111000000000000 = .error .haltedPhase ∧ decode 0b1010000000000000 = .error .noEvent ∧
    decode 0b0101010000110000 = .error .notReceiving ∧ decode 0b1000110000000000 = .error .notTransmitting ∧
    decode 0b1001010000110000 = .error .unreachablePhase := by decide

/-! ## The written forms -/

/-- Step 3 of P3 with its key, in the form of R65 (the blank before the semicolon is log 21's). -/
theorem test_trace_line : traceLineText (.fsSkip 0x41) = "FS.SKIP 0x41 ; K=0xA441".toList := by decide

/-- The header of P1 (R66). -/
theorem test_params_line :
    paramsText ⟨.fixed, 50, .assert, .wrap⟩ =
      "PARAMS FRAME_MODE=FIXED, BASE_SPEED=50, FAULT_STANDBY=ASSERT, ARITH_OVERFLOW=WRAP".toList := by decide

/-- R67 sets the count of GARBAGE no bound. -/
theorem test_large_count : lineText (.garbage 100000 0x20) = "GARBAGE 100000, 0x20".toList := by decide

/-- R67: GARBAGE requires a byte other than the sentinel. -/
theorem test_garbage_of_sentinels : (Line.garbage 2 0x7B).expand = none ∧
    (Line.garbage 2 0x20).expand = some [.rxb 0x20, .rxb 0x20] := by decide

/-! ## The synchronizer -/

/-- V-S1. -/
theorem test_fsTrig : after (step (offering .fixed [.txa])) (fun t => (t.stepEvents, t.phase, t.cnt, t.stimulus)) =
    some ([.tx 0x30], .recv, 0, []) := by decide

/-- V-S2. -/
theorem test_fsFixb_last : after (exec (.fsFixb 0x19) (inPhase .fixed .recv 4))
    (fun t => (Memory.read t.buf 4, t.cnt, t.phase)) = some (0x19, 0, .decode) := by decide

/-- P1 steps 2 to 6: before its fifth byte a frame goes on. -/
theorem test_fsFixb_more : after (exec (.fsFixb 0x30) (inPhase .fixed .recv 3))
    (fun t => (Memory.read t.buf 3, t.cnt, t.phase)) = some (0x30, 4, .recv) := by decide

/-- V-S3. -/
theorem test_fsFixf : after (exec .fsFixf { inPhase .fixed .recv 2 with standby := false })
    (fun t => (t.stepEvents, t.phase, t.cnt, t.standby)) = some ([.fault .read], .start, 0, true) := by decide

/-- P5 under HOLD. -/
theorem test_fsFixf_hold : after (exec .fsFixf
      { State.resetWith ⟨.fixed, 50, .hold, .wrap⟩ 2500 with phase := .recv, standby := false })
    (fun t => (t.stepEvents, t.standby)) = some ([.fault .read], false) := by decide

/-- V-S4. -/
theorem test_fsHunt : after (step (block .delimited)) (fun t => (t.phase, t.stepEvents)) = some (.hunt, []) := by decide

/-- V-S5. -/
theorem test_fsSent : after (exec .fsSent { inPhase .delimited .hunt 9 with frameErr := true })
    (fun t => (t.phase, t.cnt, t.frameErr, t.buf)) = some (.body, 0, false, []) := by decide

/-- V-S6. -/
theorem test_fsSkip : after (step { offering .delimited [.rxb 0x41] with phase := .hunt })
    (fun t => t == inPhase .delimited .hunt 0) = some true := by decide

/-- V-S7. -/
theorem test_fsHuntf : after (exec .fsHuntf (inPhase .delimited .hunt 0))
    (fun t => (t.stepEvents, t.phase)) = some ([.fault .read], .start) := by decide

/-- V-S8. -/
theorem test_fsBodyb_last : after (exec (.fsBodyb 0x7D) (inPhase .delimited .body 73))
    (fun t => (Memory.read t.buf 73, t.cnt, t.phase)) = some (0x7D, 0, .decode) := by decide

/-- V-S11. -/
theorem test_fsBodyb_damaged : after (exec (.fsBodyb 0) { inPhase .delimited .body 73 with frameErr := true })
    (fun t => (t.stepEvents, t.phase, t.cnt, t.frameErr)) = some ([], .start, 0, false) := by decide

/-- V-S9, over a byte left from an earlier frame. -/
theorem test_fsBodyf : after (exec .fsBodyf { inPhase .delimited .body 10 with buf := [(9, 1), (10, 2)] })
    (fun t => (t.stepEvents, t.buf, t.cnt, t.frameErr)) = some ([.fault .read], [(9, 1)], 11, true) := by decide

/-- V-S12. -/
theorem test_fsBodyf_last : after (exec .fsBodyf (inPhase .delimited .body 73))
    (fun t => (t.stepEvents, t.phase, t.cnt, t.frameErr)) = some ([.fault .read], .start, 0, false) := by decide

/-! ## The decoder -/

/-- V-D6. -/
theorem test_decRaw : after (exec .decRaw { inPhase .fixed .decode 0 with buf := [(0, 47), (1, 48)] })
    (fun t => (t.errReg.toInt, t.flag0, t.flag1, t.phase)) = some (700, false, true, .pid) := by decide

/-- V-D8: the weights. -/
theorem test_decRaw_weights : after (exec .decRaw
      { inPhase .fixed .decode 0 with buf := [(0, 1), (1, 2), (2, 3), (3, 4), (4, 5)] })
    (fun t => (t.errReg.toInt, t.flag0, t.flag1)) = some (260, false, false) := by decide

/-- V-D14. -/
theorem test_decStr_record : after (execDecStrWith TD
      { inPhase .delimited .decode 0 with buf := [(0, 0x45), (1, 0x80)], flag0 := true })
    (fun t => (t.errReg.toInt, t.flag0, t.flag1, t.phase)) = some (-128, false, false, .pid) := by decide

/-- V-D16. -/
theorem test_decStr_fail : after (execDecStrWith TD
      { inPhase .delimited .decode 0 with buf := [(0, 0x46)], errReg := 3, standby := false })
    (fun t => (t.stepEvents, t.phase, t.errReg, t.standby)) = some ([.fault .decode], .start, 3, true) := by decide

/-! ## The controller -/

/-- V-P7. -/
theorem test_pidStep : after (exec (.pidStep .fixed) (beforePid .wrap 690 (-15) 19110))
    (fun t => (t.integral.toInt, t.lastError.toInt, t.turnReg.toInt, t.phase)) =
    some (19800, 19110, 306600, .map) := by decide

/-- V-P11: the derivative wraps; and under HALT (V-P10) the turn alone overflows. -/
theorem test_pidStep_overflow :
    after (exec (.pidStep .fixed) (beforePid .wrap 0 (-1) 2147483647)) (fun t => t.turnReg.toInt) = some (-6) ∧
    after (exec (.pidStep .fixed) (beforePid .halt 0 0 134217728)) (fun t => (t.phase, t.integral, t.turnReg)) =
      some (.halted, 0, 0) := by decide

/-! ## The mapper -/

/-- V-M9. -/
theorem test_mapDrv : after (exec (.mapDrv .fixed) (beforeMap 50 10 false true 2500))
    (fun t => (t.stepEvents, t.motaFwd, t.motaDuty, t.motbFwd, t.motbDuty, t.standby)) =
    some ([.drive .a false 60, .drive .b true 40], false, 60, true, 40, false) := by decide

/-- V-M6: the stop case; and V-M2: the range gate at 1999. -/
theorem test_mapDrv_standby :
    after (exec (.mapDrv .fixed) (beforeMap 50 123 false false 3000))
      (fun t => (t.stepEvents, t.motaDuty, t.motbDuty, t.standby)) = some ([], 7, 9, true) ∧
    after (exec (.mapDrv .fixed) (beforeMap 50 0 true true 1999))
      (fun t => (t.motaDuty, t.motbDuty, t.standby)) = some (50, 50, true) := by decide

/-! ## The sequencer -/

/-- A placed key is the next one run, whatever the reset block's free parameters are. -/
theorem test_withFetchWord :
    after (step (State.reset.withFetchWord 16 0b1011010010000001)) (fun t => (t.cnt, Memory.read t.buf 0)) =
      some (1, 0x81) ∧
    after (step (State.reset.withFetchWord 16 0b0000110000000000)) (fun t => t.stepEvents) = some [.tx 0x30] := by
  decide

/-- R117, R118: a program's first line RESET is a step of its own, and RANGE costs none. -/
theorem test_program_starts_with_reset :
    ((Program.load ⟨⟨.fixed, 50, .assert, .wrap⟩, [.event (.range 7), .event .reset]⟩ 2500).bind
      fun s => after (step s) fun t => t == { block .fixed with rangeIn := 7 }) = some true := by decide

/-- R110: a halted block is stuck, and `rst` releases it. -/
theorem test_halted : after (step (inPhase .fixed .halted 0)) (fun _ => ()) = none ∧
    after (step { inPhase .fixed .halted 0 with stimulus := [.reset] }) (fun t => t.phase) = some .start := by decide

/-! ## Witnesses: the hypotheses of every statement can be met

Each theorem is named after its statement. -/

/-! ### The operation key -/

theorem witness_DecodeOfEncodeIsTheInstruction :
    Instr.wellFormed (.fsSkip 0x7A) = true ∧ Instr.wellFormed (.fsBodyb 0xFF) = true ∧
    Instr.wellFormed (.mapDrv .delimited) = true := by decide

theorem witness_EncodeOfDecodeIsTheKey :
    decode 0xA47B = .ok .fsSent ∧ decode 0xA47C = .ok (.fsSkip 0x7C) ∧ decode 0xD000 = .ok (.pidStep .delimited) := by
  decide

/-- Keys in two classes at once are named by one of them (log 9). -/
theorem witness_KeysWithoutOperationAreTheSixClasses :
    decode 0x9400 = .error .unreachablePhase ∧ decode 0x9000 = .error .unreachablePhase ∧
    KeyReject.noEvent.holds 0x9000 = true ∧ KeyReject.unreachablePhase.holds 0x9000 = true ∧
    decode 0x0000 = .error .noEvent := by decide

theorem witness_OnlySentAndSkipOverlap :
    ∃ r ∈ rows, ∃ r' ∈ rows, r.op ≠ r'.op ∧ ∃ k, r.accepts k = true ∧ r'.accepts k = true :=
  ⟨⟨.fsSent, 0xA47B, 0xFFFF⟩, by decide, ⟨.fsSkip, 0xA400, 0xFF00⟩, by decide, by decide, 0xA47B, by decide⟩

theorem witness_FormedKeysSelectTheNamedOperation :
    phaseLegal (inPhase .fixed .recv 0).params.frameMode (inPhase .fixed .recv 0).phase = true ∧
    phaseLegal (inPhase .delimited .hunt 0).params.frameMode (inPhase .delimited .hunt 0).phase = true ∧
    selectedOp { offering .delimited [.rxb 0x7B] with phase := .hunt } = some .fsSent ∧
    selectedOp (inPhase .fixed .decode 0) = some .decRaw := by decide

theorem witness_WrittenOperationsAreUnambiguous :
    instrText (.fsSkip 0x41) = instrText (.fsSkip 0x41) ∧ instrText (.pidStep .fixed) = instrText (.pidStep .delimited) ∧
    instrText (.mapDrv .fixed) = instrText (.mapDrv .delimited) := by decide

/-! ### One step -/

/-- A key without an event, with an idle step next, and a key that carries one, behind a RANGE line. -/
theorem witness_StepRunsTheDecodedInstruction :
    (offered (offering .delimited [.idle]) ≠ some .reset ∧ (offering .delimited [.idle]).resetDone = true ∧
      formKey (offering .delimited [.idle]) = some 0x8000 ∧ decode 0x8000 = .ok .fsHunt) ∧
    (offered (offering .fixed [.range 5, .txa]) ≠ some .reset ∧ (offering .fixed [.range 5, .txa]).resetDone = true ∧
      formKey (offering .fixed [.range 5, .txa]) = some 0x0C00 ∧ decode 0x0C00 = .ok .fsTrig) := by decide

/-- A block that waits with nothing offered, and one with an event offered that it does not accept. -/
theorem witness_WaitChangesNoRegister :
    (offered (block .fixed) ≠ some .reset ∧ (block .fixed).resetDone = true ∧ (block .fixed).phase ≠ .halted ∧
      formKey (block .fixed) = none) ∧
    (offered (offering .fixed [.rxb 1]) ≠ some .reset ∧ (offering .fixed [.rxb 1]).phase ≠ .halted ∧
      formKey (offering .fixed [.rxb 1]) = none) := by decide

theorem witness_HaltedIsStuckUntilReset :
    ((inPhase .fixed .halted 0).phase = .halted ∧ (inPhase .fixed .halted 0).resetDone = true ∧
      offered (inPhase .fixed .halted 0) ≠ some .reset) ∧
    (let s := { offering .fixed [.range 3, .reset] with phase := .halted }
     s.phase = .halted ∧ s.resetDone = true ∧ offered s = some .reset) := by decide

theorem witness_ResetStepGivesEveryResetValue :
    offered { offering .fixed [.reset, .txa] with phase := .pid, resetDone := false } = some .reset := by decide

theorem witness_ResetStateHoldsTheSpecsValues : ∃ p r s, s = State.resetWith p r := ⟨⟨.fixed, 50, .assert, .wrap⟩, 0, _, rfl⟩

theorem witness_BeforeResetEveryStepIsRefused : offered (offering .fixed [.txa]) ≠ some .reset := by decide

theorem witness_RangeLineTakesEffectAtOnce : (offering .fixed [.range 1999, .txa]).stimulus = .range 1999 :: [.txa] := rfl

/-! ### The synchronizer -/

/-- Both clauses, and both sides of the fifth byte. -/
theorem witness_FsFixbStoresTheFrameByte :
    Memory.wf (inPhase .fixed .recv 4).buf = true ∧ (inPhase .fixed .recv 4).cnt = 4 ∧
    (inPhase .fixed .recv 4).cnt.toNat < 74 ∧ (inPhase .fixed .recv 3).cnt ≠ 4 ∧
    (inPhase .fixed .recv 3).cnt.toNat < 74 ∧ (inPhase .fixed .recv 73).cnt.toNat < 74 ∧
    74 ≤ (inPhase .fixed .recv 74).cnt.toNat := by decide

theorem witness_ReadFailureAbandonsAtOnce :
    (Instr.fsFixf = .fsFixf ∨ Instr.fsFixf = .fsHuntf) ∧ (Instr.fsHuntf = .fsFixf ∨ Instr.fsHuntf = .fsHuntf) := by decide

theorem witness_HuntSkipAndSentMoveThePhase : ∃ i b, i = Instr.fsHunt ∨ i = .fsSkip b := ⟨.fsSkip 0x41, 0x41, .inr rfl⟩

/-- Counter 72, 73 with either mark, and 74. -/
theorem witness_FsBodybStoresTheBodyByte :
    Memory.wf (inPhase .delimited .body 72).buf = true ∧ (inPhase .delimited .body 72).cnt.toNat < 73 ∧
    (inPhase .delimited .body 73).cnt.toNat = 73 ∧ (inPhase .delimited .body 73).frameErr = false ∧
    ({ inPhase .delimited .body 73 with frameErr := true } : State).frameErr = true ∧
    74 ≤ (inPhase .delimited .body 74).cnt.toNat := by decide

theorem witness_FsBodyfSubstitutesAZero :
    Memory.wf (inPhase .delimited .body 72).buf = true ∧ (inPhase .delimited .body 72).cnt.toNat < 73 ∧
    (inPhase .delimited .body 73).cnt.toNat = 73 ∧ (inPhase .delimited .body 73).cnt.toNat < 74 ∧
    74 ≤ (inPhase .delimited .body 127).cnt.toNat := by decide

/-! ### The decoder -/

/-- V-D2 and V-D3: the maximum, and the minimum with both flags. -/
theorem witness_RawErrorStaysInItsRange :
    (∃ t, exec .decRaw { block .fixed with buf := [(0, 255), (1, 255), (2, 255), (3, 255), (4, 255)] } = .next t ∧
      t.errReg.toInt = 19110) ∧
    (∃ t, exec .decRaw { block .fixed with buf := [(0, 48), (1, 48)] } = .next t ∧
      t.flag0 = true ∧ t.flag1 = true ∧ t.errReg.toInt = 705) :=
  ⟨⟨_, exec_decRaw _, by decide⟩, ⟨_, exec_decRaw _, by decide⟩⟩

theorem witness_DecStrCommitsOrAbandons :
    TD (fun k => Memory.read (block .delimited).buf k.val) = none ∧
    TD (fun k => Memory.read [(0, 0x45), (1, 5)] k.val) = some ⟨5, false, false⟩ := by decide

theorem witness_DecodeIsPure :
    (∃ t, exec .decStr (inPhase .delimited .decode 0) = .next t) ∧
    (TD (frameBody (inPhase .delimited .decode 0)) = none ∧
      ∃ t, execDecStrWith TD (inPhase .delimited .decode 0) = .next t) :=
  ⟨⟨_, exec_decStr _⟩, by decide, ⟨_, rfl⟩⟩

/-! ### The controller -/

theorem witness_PidStepWraps : (beforePid .wrap 0 0 10).params.arithOverflow = .wrap := rfl

/-- V-P1 fits; in V-P10 only the turn does not. -/
theorem witness_PidStepHaltsOnOverflow :
    (∃ d i p q r u : Int, d = (beforePid .halt 0 0 10).errReg.toInt - (beforePid .halt 0 0 10).lastError.toInt ∧
      i = (beforePid .halt 0 0 10).integral.toInt + (beforePid .halt 0 0 10).errReg.toInt ∧
      p = 5 * (beforePid .halt 0 0 10).errReg.toInt ∧ q = p + i ∧ r = 10 * d ∧ u = q + r ∧
      ∀ z ∈ [d, i, p, q, r, u], -2147483648 ≤ z ∧ z ≤ 2147483647) ∧
    (∃ d i p q r u : Int,
      d = (beforePid .halt 0 0 134217728).errReg.toInt - (beforePid .halt 0 0 134217728).lastError.toInt ∧
      i = (beforePid .halt 0 0 134217728).integral.toInt + (beforePid .halt 0 0 134217728).errReg.toInt ∧
      p = 5 * (beforePid .halt 0 0 134217728).errReg.toInt ∧ q = p + i ∧ r = 10 * d ∧ u = q + r ∧
      ∃ z ∈ [d, i, p, q, r, u], z < -2147483648 ∨ 2147483647 < z) :=
  ⟨⟨10, 10, 50, 60, 100, 160, by decide⟩,
    ⟨134217728, 134217728, 671088640, 805306368, 1342177280, 2147483648, by decide⟩⟩

theorem witness_TurnHasItsClosedForm :
    (beforePid .wrap 705 705 705).params.arithOverflow = .wrap ∧
    (beforePid .wrap 705 705 705).lastError = (beforePid .wrap 705 705 705).errReg := by decide

/-- Two steps through PID.STEP under WRAP and under HALT, one that halts (V-P10), and one from reset. -/
theorem witness_IntegralIsTheSumOfTheErrors :
    ((beforePid .wrap 0 0 10).resetDone = true ∧ (beforePid .wrap 0 0 10).params.arithOverflow = .wrap ∧
      EnvEvent.reset ∉ (beforePid .wrap 0 0 10).stimulus ∧ pidErrors 2 (beforePid .wrap 0 0 10) = [10] ∧
      after (Host.Core.run core 2 (beforePid .wrap 0 0 10)) (fun t => t.integral.toInt) = some 10) ∧
    ((beforePid .halt 3 0 10).resetDone = true ∧ (beforePid .halt 3 0 10).params.arithOverflow = .halt ∧
      EnvEvent.reset ∉ (beforePid .halt 3 0 10).stimulus ∧
      after (Host.Core.run core 2 (beforePid .halt 3 0 10)) (fun t => (t.phase, t.integral.toInt)) = some (.start, 13)) ∧
    ((beforePid .halt 0 0 134217728).phase ≠ .halted ∧
      pidErrors 1 (beforePid .halt 0 0 134217728) = [134217728] ∧
      after (Host.Core.run core 1 (beforePid .halt 0 0 134217728)) (fun t => (t.phase, t.integral)) =
        some (.halted, 0)) ∧
    (EnvEvent.reset ∉ [EnvEvent.txa] ∧
      after (Host.Core.run core 1 { State.resetWith ⟨.fixed, 50, .assert, .wrap⟩ 2500 with stimulus := [.txa] })
        (fun t => t.phase) = some .recv) := by decide

/-- Before frame 1 of e = -15, before frame 112,370 of e = 19110 and before frame 143,165,571 of e = -15: one on each side of the
horizon. Under WRAP, the first frame whose integral wraps for the one, and the last that does not for the other. -/
theorem witness_OverflowHorizonIsWhereTheSpecSays :
    (let s := beforePid .wrap 0 0 (-15)
     s.errReg.toInt = -15 ∧ s.lastError.toInt = (if (1 : Nat) = 1 then 0 else -15) ∧
       s.integral.toInt = ((1 : Nat) - 1 : Int) * -15) ∧
    (let s := beforePid .halt (112369 * 19110) 19110 19110
     s.errReg.toInt = 19110 ∧ s.lastError.toInt = 19110 ∧ s.integral.toInt = ((112370 : Nat) - 1 : Int) * 19110 ∧
       after (exec (.pidStep .fixed) s) (fun t => t.phase) = some .halted) ∧
    (let s := beforePid .halt (143165570 * -15) (-15) (-15)
     s.errReg.toInt = -15 ∧ s.lastError.toInt = -15 ∧ s.integral.toInt = ((143165571 : Nat) - 1 : Int) * -15 ∧
       after (exec (.pidStep .fixed) s) (fun t => t.phase) = some .map) ∧
    (let s := beforePid .wrap (112374 * 19110) 19110 19110
     s.params.arithOverflow = .wrap ∧ s.errReg.toInt = 19110 ∧ s.lastError.toInt = 19110 ∧
       s.integral.toInt = ((112375 : Nat) - 1 : Int) * 19110) ∧
    (let s := beforePid .wrap (143165575 * -15) (-15) (-15)
     s.params.arithOverflow = .wrap ∧ s.errReg.toInt = -15 ∧ s.lastError.toInt = -15 ∧
       s.integral.toInt = ((143165576 : Nat) - 1 : Int) * -15) := by decide

/-! ### The mapper -/

theorem witness_MapDrvDrivesBothMotors :
    ((beforeMap 50 0 true false 2500).flag0 = true ∨ (beforeMap 50 0 true false 2500).flag1 = true) ∧
    ((beforeMap 50 0 false true 2500).flag0 = true ∨ (beforeMap 50 0 false true 2500).flag1 = true) ∧
    ((beforeMap 50 0 true true 2500).flag0 = true ∨ (beforeMap 50 0 true true 2500).flag1 = true) := by decide

theorem witness_MapDrvStopCaseHoldsTheMotors :
    (beforeMap 50 123 false false 3000).flag0 = false ∧ (beforeMap 50 123 false false 3000).flag1 = false := by decide

/-- Different turns and ranges, both flags set. -/
theorem witness_DirectionsDependOnTheFlagsAlone :
    (beforeMap 50 60 true true 0).flag0 = (beforeMap 9 (-60) true true 2500).flag0 ∧
    (beforeMap 50 60 true true 0).flag1 = (beforeMap 9 (-60) true true 2500).flag1 ∧
    (beforeMap 50 60 true true 0).flag0 = true ∧ (beforeMap 50 60 true true 0).flag1 = true := by decide

/-! ### Faults, outputs and who writes what -/

/-- A next state of each kind of event list. -/
theorem witness_EventListsHaveTheSpecsShape :
    (∃ t, exec .fsTrig (block .fixed) = .next t) ∧ (∃ t, exec .fsHuntf (block .delimited) = .next t) ∧
    (∃ t, exec (.mapDrv .fixed) (beforeMap 50 0 true true 2500) = .next t) :=
  ⟨⟨_, rfl⟩, ⟨_, rfl⟩, ⟨_, rfl⟩⟩

theorem witness_FaultsComeFromTheirOperationsAlone :
    (∃ t, exec .fsBodyf (inPhase .delimited .body 0) = .next t) ∧
    (∃ t, exec .decStr (inPhase .delimited .decode 0) = .next t) ∧
    (∃ t, exec .fsTrig (block .fixed) = .next t ∧ Emits (block .fixed) t [.tx 0x30]) :=
  ⟨⟨_, rfl⟩, ⟨_, exec_decStr _⟩, ⟨_, rfl, rfl, rfl⟩⟩

theorem witness_FaultReportWritesStandbyOnly :
    (block .fixed).stepEvents = [] ∧
    ∃ t, exec .fsFixf (inPhase .fixed .recv 2) = .next t ∧ Emits (inPhase .fixed .recv 2) t [.fault .read] ∧
      OutEvent.fault .read ∈ [OutEvent.fault .read] :=
  ⟨rfl, _, rfl, ⟨rfl, rfl⟩, by decide⟩

/-- MAP.DRV that releases an engaged standby, MAP.DRV at the threshold's other side that engages a released one, and a
report under ASSERT that does. -/
theorem witness_StrobesFollowTheOperation :
    (let s := { beforeMap 50 0 true false 2000 with standby := true }
     s.stepEvents = [] ∧ after (exec (.mapDrv .fixed) s) (fun t => (motaWe t, faultValid t, standbyCall s t)) =
       some (true, false, some .disableStandby)) ∧
    (let s := beforeMap 50 0 true false 1999
     s.stepEvents = [] ∧ after (exec (.mapDrv .fixed) s) (standbyCall s) = some (some .enableStandby)) ∧
    (let s := { inPhase .fixed .recv 2 with standby := false }
     s.stepEvents = [] ∧ after (exec .fsFixf s) (fun t => (faultStage t, standbyCall s t)) =
       some (some 0, some .enableStandby)) := by decide

/-- FS.HUNT meets the premise of the clauses of the other operations' elements; the rest are met by a DEC.RAW and by a
FS.BODYB that is not the last. -/
theorem witness_EachElementHasItsWritersOnly :
    (∃ t, exec .fsHunt (block .delimited) = .next t ∧
      ∀ evs, Emits (block .delimited) t evs → ∀ st, OutEvent.fault st ∉ evs) ∧
    (∃ t, exec .decRaw (block .fixed) = .next t) ∧ (∃ t, exec .decStr (block .delimited) = .next t) ∧
    (∃ t, exec (.fsBodyb 1) (inPhase .delimited .body 72) = .next t ∧ t.phase ≠ .start) ∧
    (∀ m, Instr.fsHunt ≠ .pidStep m) ∧ (∀ m, Instr.fsHunt ≠ .mapDrv m) ∧ Instr.fsHunt ≠ .decRaw ∧
    Instr.fsHunt ≠ .decStr ∧ (∀ b, Instr.fsHunt ≠ .fsFixb b) ∧ (∀ b, Instr.fsHunt ≠ .fsBodyb b) ∧
    Instr.fsHunt ≠ .fsBodyf := by
  refine ⟨⟨_, rfl, ?_⟩, ⟨_, exec_decRaw _⟩, ⟨_, exec_decStr _⟩, ⟨_, rfl, by decide⟩,
    nofun, nofun, nofun, nofun, nofun, nofun, nofun⟩
  intro evs he st hst
  have hnil : evs = [] := by simpa [Emits] using he.1.symm
  simp [hnil] at hst

theorem witness_ControlStateChangesOnlyInPhasePid :
    after (step (block .delimited)) (fun t => t.phase) = some .hunt ∧ offered (block .delimited) ≠ some .reset ∧
    (block .delimited).phase ≠ .pid := by decide

theorem witness_ParametersNeverChange :
    after (step (beforePid .halt 0 0 10)) (fun t => t.phase) = some .map ∧
    after (step (offering .fixed [.reset])) (fun t => t.phase) = some .start := by decide

theorem witness_OnlyTheTriggerIsTransmitted :
    (offering .fixed [.txa]).resetDone = true ∧ (offering .fixed [.txa]).params.frameMode = .fixed ∧
    (offering .fixed [.txa]).phase = .start ∧ offered (offering .fixed [.txa]) = some .txa ∧
    after (step (offering .fixed [.txa])) (fun t => decide (OutEvent.tx 0x30 ∈ t.stepEvents)) = some true := by decide

/-- A transfer, and a step that makes none while an event waits. -/
theorem witness_OnlyATransferConsumesAChannelEvent :
    (let s := { offering .fixed [.rxb 1, .rxb 2] with phase := .recv }
     offered s ≠ some .reset ∧ rxTransfer s = true ∧ after (step s) (fun t => t.stimulus) = some [.rxb 2]) ∧
    (let s := { offering .fixed [.rxb 1, .rxb 2] with phase := .pid }
     offered s ≠ some .reset ∧ rxTransfer s = false ∧ txTransfer s = false ∧
       after (step s) (fun t => t.stimulus) = some [.rxb 1, .rxb 2]) := by decide

theorem witness_RangeMattersOnlyInPhaseMap :
    (beforePid .wrap 0 0 10).phase ≠ .map ∧ after (step (beforePid .wrap 0 0 10)) (fun t => t.rangeIn) = some 2500 := by
  decide

/-! ### Invariants and runs -/

/-- The invariant in the middle of a damaged body. -/
theorem witness_EveryStepKeepsTheInvariant :
    let s := { inPhase .delimited .body 73 with frameErr := true, motaDuty := 100, stimulus := [.rxf] }
    Inv s ∧ after (step s) (fun t => t.phase) = some .start := by
  refine ⟨?_, by decide⟩
  constructor <;> decide

theorem witness_ReachableStatesMeetTheInvariant : Reachable (offering .fixed [.txa]) := .reset _ _ [.txa]

/-- A state that meets the invariant under WRAP, and a halted one under HALT. -/
theorem witness_NothingStopsButHalted :
    (Inv (block .fixed) ∧ (block .fixed).resetDone = true ∧ (block .fixed).params.arithOverflow = .wrap) ∧
    (let s := { beforePid .halt 0 0 10 with phase := .halted }
     Inv s ∧ s.resetDone = true ∧ offered s ≠ some .reset) := by
  refine ⟨⟨?_, by decide⟩, ?_, by decide⟩ <;> constructor <;> decide

/-- Two different states that agree where it matters: in BODY one stored byte is live, and the latches are stale. -/
theorem witness_StaleLatchesAndBytesAreUnobservable :
    let s := { offering .delimited [.rxb 9] with phase := .body, cnt := 1, buf := [(0, 5), (1, 6)], errReg := 3 }
    let s' := { offering .delimited [.rxb 9] with phase := .body, cnt := 1, buf := [(0, 5), (73, 7)], turnReg := 4 }
    Memory.wf s.buf = true ∧ Memory.wf s'.buf = true ∧ s ≠ s' ∧ LiveAgree s s' := by
  refine ⟨by decide, by decide, by decide, ?_⟩
  constructor
  case buf =>
    intro k hk
    have h0 : k = 0 := by simpa [byteLive] using hk
    subst h0
    rfl
  all_goals decide

/-- Leftovers of an earlier frame, a RANGE line and an idle step right after the frame, and the next poll waiting; and a
block under HALT where nothing overflows. -/
theorem witness_FixedCycleTakesNineSteps :
    (let s := { offering .fixed [.txa, .rxb 48, .rxb 0, .rxb 0, .rxb 0, .rxb 0, .idle, .range 1999, .txa] with
       buf := [(1, 48), (4, 9)], integral := 690, lastError := 5 }
     s.params.frameMode = .fixed ∧ s.phase = .start ∧ s.resetDone = true ∧ Memory.wf s.buf = true ∧
       s.stimulus = .txa :: .rxb 48 :: .rxb 0 :: .rxb 0 :: .rxb 0 :: .rxb 0 :: [.idle, .range 1999, .txa] ∧
       afterInternalSteps 3 [.idle, .range 1999, .txa] s.rangeIn = some ([.txa], 1999) ∧ rawSum 48 0 0 0 0 = 225 ∧
       s.params.arithOverflow ≠ .halt) ∧
    (State.resetWith ⟨.fixed, 50, .assert, .halt⟩ 2500).params.arithOverflow = .halt ∧ PidFits 225 690 5 := by
  unfold PidFits
  decide

/-- S7: 50 bytes of garbage, then a body that holds sentinels. -/
theorem witness_DelimitedFrameIsFoundAfterAnyGarbage :
    let s := offering .delimited ((List.replicate 50 (0x41 : Byte)).map .rxb ++
      .rxb 0x7B :: ((List.ofFn fun _ : Fin 74 => (0x7B : Byte)).map .rxb ++ [.rxf]))
    s.params.frameMode = .delimited ∧ s.phase = .start ∧ s.resetDone = true ∧ Memory.wf s.buf = true ∧
      (0x7B : Byte) ∉ List.replicate 50 (0x41 : Byte) := by
  refine ⟨rfl, rfl, rfl, rfl, ?_⟩
  simp

theorem witness_GarbageInTheHuntIsInvisible :
    (inPhase .delimited .hunt 0).params.frameMode = .delimited ∧ (inPhase .delimited .hunt 0).phase = .hunt ∧
    (inPhase .delimited .hunt 0).resetDone = true ∧ (0x7B : Byte) ∉ [(0x7A : Byte), 0x7C] := by decide

/-- V-S13: all 74 receives fail. -/
theorem witness_DamagedBodyIsConsumedAndAbandoned :
    let evs := List.replicate 74 EnvEvent.rxf
    let s := { offering .delimited (evs ++ [.rxb 1]) with phase := .body }
    s.params.frameMode = .delimited ∧ s.phase = .body ∧ s.cnt = 0 ∧ s.frameErr = false ∧ s.resetDone = true ∧
      evs.length = 74 ∧ (∀ e ∈ evs, isReceiveEvent e = true) ∧ .rxf ∈ evs ∧ s.stimulus = evs ++ [.rxb 1] := by
  refine ⟨rfl, rfl, rfl, rfl, rfl, rfl, ?_, ?_, rfl⟩ <;> simp [isReceiveEvent]

end Sys2Proof.Tests
end

section
/-! # Key formation, taken events and progress (00_scope.md)

What a formed key carries, which event a step takes, and that a step of a block meeting the invariant answers a next
state outside HALTED. -/

namespace Sys2Proof

/-! ## The fields of a made key (30_encoding.md R58) -/

@[simp] theorem FrameMode.ofCode_code (m : FrameMode) : FrameMode.ofCode m.code = m := by cases m <;> decide

@[simp] theorem Phase.ofCode_code (p : Phase) : Phase.ofCode p.code = p := by cases p <;> decide

@[simp] theorem Ev.ofCode_code (e : Ev) : Ev.ofCode e.code = e := by cases e <;> decide

section
variable (m : FrameMode) (p : Phase) (e : Ev) (d : Byte)

@[simp] theorem keyMode_makeKey : keyMode (makeKey m p e d) = m := by
  have h : (m.code ++ p.code ++ e.code ++ (0 : BitVec 2) ++ d).extractLsb' 15 1 = m.code := by
    rw [BitVec.extractLsb'_append_eq_of_le (by decide), BitVec.extractLsb'_append_eq_of_le (by decide),
      BitVec.extractLsb'_append_eq_of_le (by decide), BitVec.extractLsb'_append_eq_left]
  exact (congrArg FrameMode.ofCode h).trans m.ofCode_code

@[simp] theorem keyPhase_makeKey : keyPhase (makeKey m p e d) = p := by
  have h : (m.code ++ p.code ++ e.code ++ (0 : BitVec 2) ++ d).extractLsb' 12 3 = p.code := by
    rw [BitVec.extractLsb'_append_eq_of_le (by decide), BitVec.extractLsb'_append_eq_of_le (by decide),
      BitVec.extractLsb'_append_eq_of_le (by decide), BitVec.extractLsb'_append_eq_right]
  exact (congrArg Phase.ofCode h).trans p.ofCode_code

@[simp] theorem keyEv_makeKey : keyEv (makeKey m p e d) = e := by
  have h : (m.code ++ p.code ++ e.code ++ (0 : BitVec 2) ++ d).extractLsb' 10 2 = e.code := by
    rw [BitVec.extractLsb'_append_eq_of_le (by decide), BitVec.extractLsb'_append_eq_of_le (by decide),
      BitVec.extractLsb'_append_eq_right]
  exact (congrArg Ev.ofCode h).trans e.ofCode_code

end

end Sys2Proof

namespace Sys2Proof.Machine

open Sys2Proof.Claims

/-! ## Keys refused for their phase (R64 (f)) -/

/-- R64 (f) is the phase a key's mode does not have. -/
theorem unreachablePhase_holds (k : Key) :
    KeyReject.unreachablePhase.holds k = !phaseLegal (keyMode k) (keyPhase k) := by
  simp only [KeyReject.holds]
  cases keyMode k <;> cases keyPhase k <;> rfl

theorem unreachablePhase_of_rejectOf (k : Key) (h : rejectOf k = .unreachablePhase) :
    KeyReject.unreachablePhase.holds k = true := by
  by_contra hn
  unfold rejectOf at h
  rw [if_neg hn] at h
  split_ifs at h

theorem rejectOf_of_decode_error (k : Key) (c : KeyReject) (h : decode k = .error c) : rejectOf k = c := by
  unfold decode at h
  split at h <;> cases h
  rfl

/-! ## Formed keys (R61) -/

/-- A formed key has the block's mode and phase. It carries no event, and then the block offers no transfer, or it
carries the event offered, and then the step takes it. -/
theorem formKey_cases (s : State) (k : Key) (hk : formKey s = some k) :
    (k = makeKey s.params.frameMode s.phase .none 0 ∧ rxReady s = false ∧ txValid s = false) ∨
    (∃ ev d e, k = makeKey s.params.frameMode s.phase ev d ∧ ev ≠ .none ∧ offered s = some e ∧ takes s e = true) := by
  have receive (hrx : rxReady s = true) (h : receiveKey s = some k) : ∃ ev d e,
      k = makeKey s.params.frameMode s.phase ev d ∧ ev ≠ .none ∧ offered s = some e ∧ takes s e = true := by
    unfold receiveKey at h
    split at h <;> cases h
    next b ho => exact ⟨.rxb, b, .rxb b, rfl, by decide, ho, hrx⟩
    next ho => exact ⟨.rxf, 0, .rxf, rfl, by decide, ho, hrx⟩
  have internal (hrx : rxReady s = false) (htx : txValid s = false) (h : some (internalKey s) = some k) :
      k = makeKey s.params.frameMode s.phase .none 0 ∧ rxReady s = false ∧ txValid s = false :=
    ⟨(Option.some.inj h).symm, hrx, htx⟩
  unfold formKey at hk
  cases hp : s.phase <;> simp only [hp] at hk receive internal
  case recv => exact .inr (receive (by simp [rxReady, hp]) hk)
  case hunt => exact .inr (receive (by simp [rxReady, hp]) hk)
  case body => exact .inr (receive (by simp [rxReady, hp]) hk)
  case decode => exact .inl (internal (by simp [rxReady, hp]) (by simp [txValid, hp]) hk)
  case pid => exact .inl (internal (by simp [rxReady, hp]) (by simp [txValid, hp]) hk)
  case map => exact .inl (internal (by simp [rxReady, hp]) (by simp [txValid, hp]) hk)
  case halted => cases hk
  case start =>
    cases hm : s.params.frameMode <;> simp only [hm] at hk internal
    case delimited => exact .inl (internal (by simp [rxReady, hp]) (by simp [txValid, hm]) hk)
    case fixed =>
      split at hk <;> cases hk
      next htx => exact .inr ⟨.txa, 0, .txa, rfl, by decide, by simpa [txReady] using htx,
        by simp [takes, txValid, hp, hm]⟩

theorem formKey_mode_phase (s : State) (k : Key) (hk : formKey s = some k) :
    keyMode k = s.params.frameMode ∧ keyPhase k = s.phase := by
  obtain ⟨rfl, -, -⟩ | ⟨ev, d, e, rfl, -, -, -⟩ := formKey_cases s k hk <;> simp

/-- In a phase the mode has, every formed key selects an operation. -/
theorem formKey_decodes (s : State) (k : Key) (hl : phaseLegal s.params.frameMode s.phase = true)
    (hk : formKey s = some k) : ∃ i, decode k = .ok i := by
  cases hd : decode k with
  | ok i => exact ⟨i, rfl⟩
  | error c =>
    obtain rfl := formed_key_error s k c hk hd
    have hu := unreachablePhase_of_rejectOf k (rejectOf_of_decode_error k _ hd)
    obtain ⟨hm, hp⟩ := formKey_mode_phase s k hk
    simp [unreachablePhase_holds, hm, hp, hl] at hu

/-! ## The event a step takes (10_state.md R34, R35; 70_reset_and_hazards.md R121) -/

/-- Taking an event touches the stimulus only. -/
theorem takeEvent_eq (s : State) : takeEvent s = { s with stimulus := (takeEvent s).stimulus } := by
  unfold takeEvent
  split
  · rfl
  · split <;> rfl

theorem takeEvent_of_takes (s : State) (e : EnvEvent) (he : s.stimulus.head? = some e) (ht : takes s e = true) :
    takeEvent s = { s with stimulus := s.stimulus.tail } := by
  obtain ⟨rest, hs⟩ := List.head?_eq_some_iff.1 he
  rw [takeEvent_eq, takeEvent_stimulus_cons s e rest hs, if_pos ht, hs, List.tail_cons]

theorem takes_without_transfer (s : State) (e : EnvEvent) (hrx : rxReady s = false) (htx : txValid s = false) :
    takes s e = true ↔ e = .idle := by
  cases e <;> simp [takes, hrx, htx]

/-- Where the block offers no transfer, a step takes an idle event and no other. -/
theorem takeEvent_without_transfer (s : State) (hrx : rxReady s = false) (htx : txValid s = false) :
    takeEvent s = { s with stimulus := afterIdle s.stimulus } := by
  rw [takeEvent_eq]
  cases hs : s.stimulus with
  | nil => rw [takeEvent_stimulus_nil s hs]; rfl
  | cons e rest =>
    rw [takeEvent_stimulus_cons s e rest hs]
    simp only [takes_without_transfer s e hrx htx, afterIdle, List.head?_cons, Option.some.injEq, List.tail_cons]

@[simp] theorem takes_settle (s : State) (e : EnvEvent) : takes (settle s) e = takes s e := by cases e <;> rfl

@[simp] theorem rxReady_settle (s : State) : rxReady (settle s) = rxReady s := rfl

@[simp] theorem txValid_settle (s : State) : txValid (settle s) = txValid s := rfl

/-- The state a formed key's operation runs on. -/
theorem takeEvent_settle_of_formKey (s : State) (k : Key) (hk : formKey s = some k) :
    takeEvent (settle s) = { settle s with
      stimulus := if keyEv k = .none then afterIdle (pending s) else (pending s).tail } := by
  obtain ⟨rfl, hrx, htx⟩ | ⟨ev, d, e, rfl, hev, ho, ht⟩ := formKey_cases s k hk
  · rw [takeEvent_without_transfer _ (by simpa using hrx) (by simpa using htx)]
    simp [pending]
  · rw [takeEvent_of_takes (settle s) e (by rw [← offered_settled, offered_settle, ho]) (by simpa using ht)]
    simp [hev, pending]

/-! ## Progress -/

theorem rst_eq_false_iff (s : State) : rst s = false ↔ offered s ≠ some .reset := by simp [rst]

theorem step_of_halted (s : State) (hr : rst s = false) (hd : s.resetDone = true) (hp : s.phase = .halted) :
    step s = .fault .halted := by
  simp [step, runSettled, operate, hr, hd, hp]

/-- Under the invariant the counter names an existing buffer byte in every phase. -/
theorem Inv.cnt_lt {s : State} (h : Inv s) : s.cnt.toNat < 74 := by
  by_cases hr : s.phase = .recv
  · have := h.recv_count hr
    omega
  · by_cases hb : s.phase = .body
    · have := h.body_count hb
      omega
    · simp [h.other_count hr hb]

/-- Outside HALTED a block that has been reset and meets the invariant always steps: it is reset, waits, or runs an
operation whose buffer byte exists. -/
theorem step_answers_next (s : State) (h : Inv s) (hd : s.resetDone = true) (hp : s.phase ≠ .halted) :
    ∃ t, step s = .next t := by
  cases hr : rst s with
  | true => exact ⟨_, step_of_rst s hr⟩
  | false =>
    cases hk : formKey s with
    | none => exact ⟨_, step_of_wait s hr hd hp hk⟩
    | some k =>
      obtain ⟨i, hi⟩ := formKey_decodes s k h.phase_legal hk
      rw [step_of_key s k i hr hd hk hi]
      exact exec_answers_next i _ (by simpa using h.cnt_lt)

/-! ## The obligations -/

/-- Settles O51: outside HALTED by `step_answers_next`; in HALTED the step is a reset or stuck, and WRAP
excludes HALTED. -/
theorem nothingStopsButHalted : Obligations.NothingStopsButHalted := by
  intro s h hd
  refine ⟨?_, fun hw => step_answers_next s h hd fun hp => ?_⟩
  · by_cases hp : s.phase = .halted
    · cases hr : rst s with
      | true => exact .inl ⟨_, step_of_rst s hr⟩
      | false => exact .inr ⟨hp, (rst_eq_false_iff s).1 hr, step_of_halted s hr hd hp⟩
    · exact .inl (step_answers_next s h hd hp)
  · have := h.halted_only_under_halt hp
    simp [hw] at this

/-- Settles O9, by which event a formed key's step takes. -/
theorem stepRunsTheDecodedInstruction : Obligations.StepRunsTheDecodedInstruction := by
  intro s k i ho hd hk hi
  rw [step_of_key s k i ((rst_eq_false_iff s).2 ho) hd hk hi, takeEvent_settle_of_formKey s k hk]
  rfl

end Sys2Proof.Machine
end

section
/-! # The phase and mode an operation is selected in, and the reachability invariant (10_state.md R22 to R27) -/

namespace Sys2Proof

/-! ## The phase and mode of a row (30_encoding.md R62) -/

/-- The PHASE field of an operation's row. -/
def Op.phase : Op → Phase
  | .fsTrig => .start
  | .fsHunt => .start
  | .fsFixb => .recv
  | .fsFixf => .recv
  | .fsSent => .hunt
  | .fsSkip => .hunt
  | .fsHuntf => .hunt
  | .fsBodyb => .body
  | .fsBodyf => .body
  | .decRaw => .decode
  | .decStr => .decode
  | .pidStep => .pid
  | .mapDrv => .map

/-- The MODE field of an operation's row, none where it is don't care. -/
def Op.mode : Op → Option FrameMode
  | .fsTrig => some .fixed
  | .fsHunt => some .delimited
  | .fsFixb => some .fixed
  | .fsFixf => some .fixed
  | .fsSent => some .delimited
  | .fsSkip => some .delimited
  | .fsHuntf => some .delimited
  | .fsBodyb => some .delimited
  | .fsBodyf => some .delimited
  | .decRaw => some .fixed
  | .decStr => some .delimited
  | .pidStep => none
  | .mapDrv => none

theorem preferRow_cases (best : Option Row) (r : Row) : preferRow best r = some r ∨ preferRow best r = best := by
  unfold preferRow
  split
  · exact .inl rfl
  · split
    · exact .inl rfl
    · exact .inr rfl

/-- The row a key selects is one of the map's and accepts the key (30_encoding.md R62). -/
theorem selectRow_accepts (k : Key) (r : Row) (h : selectRow k = some r) : r ∈ rows ∧ r.accepts k = true := by
  unfold selectRow at h
  revert r
  refine List.foldlRecOn (motive := fun best => ∀ r, best = some r → r ∈ rows ∧ r.accepts k = true) rows _
    (by simp) fun best hbest a ha r hr => ?_
  split at hr
  next hacc =>
    obtain hp | hp := preferRow_cases best a
    · obtain rfl : a = r := Option.some.inj (hp.symm.trans hr)
      exact ⟨ha, hacc⟩
    · exact hbest r (hp.symm.trans hr)
  next => exact hbest r hr

@[simp] theorem assemble_op (o : Op) (k : Key) : (assemble o k).op = o := by cases o <;> rfl

/-- A key a row accepts has the row's value in every field the mask covers. -/
theorem extractLsb'_of_accepts (r : Row) (k : Key) (start len : Nat) (h : r.accepts k = true)
    (hm : r.mask.extractLsb' start len = BitVec.allOnes len) :
    k.extractLsb' start len = r.pattern.extractLsb' start len := by
  have hk : k &&& r.mask = r.pattern := by simpa [Row.accepts] using h
  rw [← hk, BitVec.extractLsb'_and, hm, BitVec.and_allOnes]

theorem rows_phase : ∀ r ∈ rows, r.mask.extractLsb' 12 3 = BitVec.allOnes 3 ∧
    Phase.ofCode (r.pattern.extractLsb' 12 3) = r.op.phase := by decide

theorem rows_mode : ∀ r ∈ rows, ∀ m ∈ r.op.mode, r.mask.extractLsb' 15 1 = BitVec.allOnes 1 ∧
    FrameMode.ofCode (r.pattern.extractLsb' 15 1) = m := by decide

/-- The key of an operation has the phase and the mode of the operation's row. -/
theorem decode_ok_fields (k : Key) (i : Instr) (h : decode k = .ok i) :
    keyPhase k = i.op.phase ∧ ∀ m ∈ i.op.mode, keyMode k = m := by
  unfold decode at h
  split at h <;> cases h
  next r hr =>
  obtain ⟨hmem, hacc⟩ := selectRow_accepts k r hr
  rw [assemble_op]
  constructor
  · obtain ⟨hmask, hphase⟩ := rows_phase r hmem
    rw [keyPhase, extractLsb'_of_accepts r k 12 3 hacc hmask, hphase]
  · intro m hm
    obtain ⟨hmask, hmode⟩ := rows_mode r hmem m hm
    rw [keyMode, extractLsb'_of_accepts r k 15 1 hacc hmask, hmode]

end Sys2Proof

namespace Sys2Proof.Machine

open Sys2Proof.Claims

/-- The operation a formed key selects is one of the block's phase and mode (30_encoding.md R61). -/
theorem selected_phase_mode (s : State) (k : Key) (i : Instr) (hk : formKey s = some k) (hi : decode k = .ok i) :
    s.phase = i.op.phase ∧ ∀ m ∈ i.op.mode, s.params.frameMode = m := by
  obtain ⟨hm, hp⟩ := formKey_mode_phase s k hk
  rw [← hm, ← hp]
  exact decode_ok_fields k i hi

/-! ## The invariant -/

theorem phaseLegal_start (m : FrameMode) : phaseLegal m .start = true := by cases m <;> rfl
theorem phaseLegal_decode (m : FrameMode) : phaseLegal m .decode = true := by cases m <;> rfl
theorem phaseLegal_pid (m : FrameMode) : phaseLegal m .pid = true := by cases m <;> rfl
theorem phaseLegal_map (m : FrameMode) : phaseLegal m .map = true := by cases m <;> rfl
theorem phaseLegal_halted (m : FrameMode) : phaseLegal m .halted = true := by cases m <;> rfl

/-- Outside RECV and BODY the counter and the mark are clear. -/
theorem Inv.at_rest {s : State} (h : Inv s) (hr : s.phase ≠ .recv) (hb : s.phase ≠ .body) :
    s.cnt = 0 ∧ s.frameErr = false :=
  ⟨h.other_count hr hb, h.mark_only_in_body hb⟩

/-- The part of the invariant that no phase enters into: the duties (R27) and the form of the buffer (R41, log 11). -/
structure DataInv (dutyA dutyB : Byte) (buf : Memory) : Prop where
  duty_a : dutyA.toNat ≤ 100
  duty_b : dutyB.toNat ≤ 100
  buf_wf : Memory.wf buf = true

theorem Inv.data {s : State} (h : Inv s) : DataInv s.motaDuty s.motbDuty s.buf := { h with }

/-- Storing a byte that exists keeps the buffer's form. -/
theorem DataInv.store {da db : Byte} {m : Memory} (h : DataInv da db m) (k : Nat) (b : Byte) (hk : k < 74) :
    DataInv da db (Memory.write m k b) :=
  { h with buf_wf := write_wf m k b h.buf_wf hk }

/-- The invariant outside RECV and BODY: the counter and the mark are clear. -/
theorem Inv.of_rest {t : State} (hdata : DataInv t.motaDuty t.motbDuty t.buf)
    (hlegal : phaseLegal t.params.frameMode t.phase = true) (hclear : t.cnt = 0 ∧ t.frameErr = false)
    (hhalt : t.phase = .halted → t.params.arithOverflow = .halt := by nofun) : Inv t where
  phase_legal := hlegal
  halted_only_under_halt := hhalt
  recv_count := by simp [hclear.1]
  body_count := by simp [hclear.1]
  other_count := fun _ _ => hclear.1
  mark_only_in_body := fun _ => hclear.2
  duty_a := hdata.duty_a
  duty_b := hdata.duty_b
  buf_wf := hdata.buf_wf

theorem Inv.of_abandoned {t : State} (hdata : DataInv t.motaDuty t.motbDuty t.buf) (ha : Abandoned t) : Inv t := by
  obtain ⟨hp, hclear⟩ := ha
  refine Inv.of_rest hdata ?_ hclear (by simp [hp])
  rw [hp]
  exact phaseLegal_start _

/-- The invariant in RECV, which FIXED mode alone has. -/
theorem Inv.of_recv {t : State} (hdata : DataInv t.motaDuty t.motbDuty t.buf) (hp : t.phase = .recv)
    (hm : t.params.frameMode = .fixed) (hc : t.cnt.toNat ≤ 4) (he : t.frameErr = false) : Inv t where
  phase_legal := by rw [hm, hp]; rfl
  halted_only_under_halt := by simp [hp]
  recv_count := fun _ => hc
  body_count := by simp [hp]
  other_count := fun hr => absurd hp hr
  mark_only_in_body := fun _ => he
  duty_a := hdata.duty_a
  duty_b := hdata.duty_b
  buf_wf := hdata.buf_wf

/-- The invariant in BODY, which DELIMITED mode alone has: the mark is free. -/
theorem Inv.of_body {t : State} (hdata : DataInv t.motaDuty t.motbDuty t.buf) (hp : t.phase = .body)
    (hm : t.params.frameMode = .delimited) (hc : t.cnt.toNat ≤ 73) : Inv t where
  phase_legal := by rw [hm, hp]; rfl
  halted_only_under_halt := by simp [hp]
  recv_count := by simp [hp]
  body_count := fun _ => hc
  other_count := fun _ hb => absurd hp hb
  mark_only_in_body := fun hb => absurd hp hb
  duty_a := hdata.duty_a
  duty_b := hdata.duty_b
  buf_wf := hdata.buf_wf

theorem count_succ_toNat (c : Count) (h : c.toNat < 127) : (c + 1).toNat = c.toNat + 1 :=
  BitVec.toNat_add_of_lt (by simpa using Nat.succ_lt_succ h)

/-- An operation run in its own phase and mode keeps the invariant. -/
theorem exec_keeps_inv (i : Instr) (s t : State) (h : Inv s) (hp : s.phase = i.op.phase)
    (hm : ∀ m ∈ i.op.mode, s.params.frameMode = m) (hx : exec i s = .next t) : Inv t := by
  have hdata := h.data
  have rest (hr : i.op.phase ≠ .recv) (hb : i.op.phase ≠ .body) : s.cnt = 0 ∧ s.frameErr = false :=
    h.at_rest (by rwa [hp]) (by rwa [hp])
  have unmarked (hb : i.op.phase ≠ .body) : s.frameErr = false := h.mark_only_in_body (by rwa [hp])
  have hunting (hd : .delimited ∈ i.op.mode) : phaseLegal s.params.frameMode .hunt = true := by rw [hm _ hd]; rfl
  cases exec_effect i s t hx with
  | fsTrig => exact .of_recv hdata rfl (hm _ rfl) (by simp) (unmarked nofun)
  | fsHunt => exact .of_rest hdata (hunting rfl) (rest nofun nofun)
  | fsFixbLast b _ h4 =>
    exact .of_rest (hdata.store _ b (by omega)) (phaseLegal_decode _) ⟨rfl, unmarked nofun⟩
  | fsFixbMore b _ hne hc =>
    have hle := h.recv_count hp
    exact .of_recv (hdata.store _ b hc) rfl (hm _ rfl) (by simp only [count_succ_toNat s.cnt (by omega)]; omega)
      (unmarked nofun)
  | fsFixf => exact .of_abandoned hdata ⟨rfl, rfl, rfl⟩
  | fsSent => exact .of_body hdata rfl (hm _ rfl) (by simp)
  | fsSkip b => exact .of_rest hdata (hunting rfl) (rest nofun nofun)
  | fsHuntf => exact .of_abandoned hdata ⟨rfl, rfl, rfl⟩
  | fsBodybMore b _ hc =>
    exact .of_body (hdata.store _ b (by omega)) rfl (hm _ rfl)
      (by simp only [count_succ_toNat s.cnt (by omega)]; omega)
  | fsBodybLast b _ hc he => exact .of_rest (hdata.store _ b (by omega)) (phaseLegal_decode _) ⟨rfl, he⟩
  | fsBodybDamaged b _ hc => exact .of_abandoned (hdata.store _ b (by omega)) ⟨rfl, rfl, rfl⟩
  | fsBodyfMore _ hc =>
    exact .of_body (hdata.store _ 0 (by omega)) rfl (hm _ rfl)
      (by simp only [count_succ_toNat s.cnt (by omega)]; omega)
  | fsBodyfLast _ hc => exact .of_abandoned (hdata.store _ 0 (by omega)) ⟨rfl, rfl, rfl⟩
  | decRaw => exact .of_rest hdata (phaseLegal_pid _) (rest nofun nofun)
  | decStrFail => exact .of_abandoned hdata ⟨rfl, rfl, rfl⟩
  | decStrRecord => exact .of_rest hdata (phaseLegal_pid _) (rest nofun nofun)
  | pidHalt _ _ hov => exact .of_rest hdata (phaseLegal_halted _) (rest nofun nofun) (fun _ => hov)
  | pidCommit => exact .of_rest hdata (phaseLegal_map _) (rest nofun nofun)
  | mapDrive => exact .of_rest ⟨dutyOf_le _, dutyOf_le _, hdata.buf_wf⟩ (phaseLegal_start _) (rest nofun nofun)
  | mapStop => exact .of_rest hdata (phaseLegal_start _) (rest nofun nofun)

/-- Every reset state meets the invariant, whatever the parameters, the range level and the coming events. -/
theorem resetWith_inv (p : Params) (r : Half) (evs : List EnvEvent) :
    Inv { State.resetWith p r with stimulus := evs } :=
  .of_rest ⟨Nat.zero_le _, Nat.zero_le _, rfl⟩ (phaseLegal_start _) ⟨rfl, rfl⟩

theorem applyReset_inv (s : State) : Inv (applyReset s) :=
  .of_rest ⟨Nat.zero_le _, Nat.zero_le _, rfl⟩ (phaseLegal_start _) ⟨rfl, rfl⟩

/-- The invariant does not speak of the inputs and the strobes. -/
theorem Inv.takeEvent_settle {s : State} (h : Inv s) : Inv (takeEvent (settle s)) := by
  rw [takeEvent_eq]
  exact { h with }

/-- Every completing step keeps the invariant. -/
theorem step_keeps_inv (s t : State) (h : Inv s) (hst : step s = .next t) : Inv t := by
  obtain ⟨-, rfl⟩ | ⟨-, -, -, -, rfl⟩ | ⟨-, -, -, k, i, hk, hi, hx⟩ := step_cases s t hst
  · exact applyReset_inv _
  · exact h.takeEvent_settle
  · obtain ⟨hp, hm⟩ := selected_phase_mode s k i hk hi
    exact exec_keeps_inv i _ t h.takeEvent_settle (by simpa using hp) (by simpa using hm) hx

/-- Settles O49, by `exec_keeps_inv` for the operation a step runs; a wait and a reset touch no more than the inputs
or give the reset values. -/
theorem everyStepKeepsTheInvariant : Obligations.EveryStepKeepsTheInvariant := step_keeps_inv

/-- Settles O48, by `resetWith_inv`. -/
theorem resetMeetsTheInvariant : Obligations.ResetMeetsTheInvariant :=
  ⟨resetWith_inv _ _ _, resetWith_inv⟩

end Sys2Proof.Machine
end

section
/-! # What each operation leaves unchanged and emits (10_state.md R15 to R28, R34 to R39)

One lemma an element of R15, then what a step does to the inputs, the control state and the strobes. -/

namespace Sys2Proof.Machine

open Sys2Proof.Claims

/-! ## The writers of each element (R15) -/

section
variable (i : Instr) (s t : State) (hx : exec i s = .next t)
include hx

/-- No operation writes the parameters or the inputs (70_reset_and_hazards.md R119; R36). -/
theorem exec_environment : SameEnvironment s t := by
  cases exec_effect i s t hx <;> exact ⟨rfl, rfl, rfl, rfl⟩

theorem exec_control (hi : ∀ m, i ≠ .pidStep m) : SameControl s t ∧ t.turnReg = s.turnReg := by
  cases exec_effect i s t hx with
  | pidHalt m => exact absurd rfl (hi m)
  | pidCommit m => exact absurd rfl (hi m)
  | _ => exact ⟨⟨rfl, rfl⟩, rfl⟩

theorem exec_decodeLatches (hr : i ≠ .decRaw) (hs : i ≠ .decStr) :
    t.errReg = s.errReg ∧ t.flag0 = s.flag0 ∧ t.flag1 = s.flag1 := by
  cases exec_effect i s t hx with
  | decRaw => exact absurd rfl hr
  | decStrFail => exact absurd rfl hs
  | decStrRecord => exact absurd rfl hs
  | _ => exact ⟨rfl, rfl, rfl⟩

theorem exec_motors (hi : ∀ m, i ≠ .mapDrv m) : SameMotors s t := by
  cases exec_effect i s t hx with
  | mapDrive m => exact absurd rfl (hi m)
  | _ => exact ⟨rfl, rfl, rfl, rfl⟩

theorem exec_buf (hf : ∀ b, i ≠ .fsFixb b) (hb : ∀ b, i ≠ .fsBodyb b) (hbf : i ≠ .fsBodyf) : t.buf = s.buf := by
  cases exec_effect i s t hx with
  | fsFixbLast b => exact absurd rfl (hf b)
  | fsFixbMore b => exact absurd rfl (hf b)
  | fsBodybMore b => exact absurd rfl (hb b)
  | fsBodybLast b => exact absurd rfl (hb b)
  | fsBodybDamaged b => exact absurd rfl (hb b)
  | fsBodyfMore => exact absurd rfl hbf
  | fsBodyfLast => exact absurd rfl hbf
  | _ => rfl

end

/-- The internal operations that do not abandon leave the counter and the mark (R22, R23). -/
theorem exec_count_mark (i : Instr) (s t : State) (hx : exec i s = .next t)
    (hi : i = .decRaw ∨ (∃ m, i = .pidStep m) ∨ ∃ m, i = .mapDrv m) : t.cnt = s.cnt ∧ t.frameErr = s.frameErr := by
  obtain rfl | ⟨m, rfl⟩ | ⟨m, rfl⟩ := hi <;> cases exec_effect _ s t hx <;> exact ⟨rfl, rfl⟩

/-- A DEC.STR that does not go to START has not abandoned the cycle (42_decode.md R81). -/
theorem exec_decStr_count_mark (s t : State) (hx : exec .decStr s = .next t) (hp : t.phase ≠ .start) :
    t.cnt = s.cnt ∧ t.frameErr = s.frameErr := by
  cases exec_effect _ s t hx with
  | decStrFail => exact absurd rfl hp
  | decStrRecord => exact ⟨rfl, rfl⟩

theorem exec_mark (i : Instr) (s t : State) (hx : exec i s = .next t)
    (hi : i = .fsTrig ∨ i = .fsHunt ∨ (∃ b, i = .fsFixb b) ∨ ∃ b, i = .fsSkip b) : t.frameErr = s.frameErr := by
  obtain rfl | rfl | ⟨b, rfl⟩ | ⟨b, rfl⟩ := hi <;> cases exec_effect _ s t hx <;> rfl

/-- An FS.BODYB that does not go to START has not abandoned the cycle (41_frame_sync.md R78). -/
theorem exec_fsBodyb_mark (b : Byte) (s t : State) (hx : exec (.fsBodyb b) s = .next t) (hp : t.phase ≠ .start) :
    t.frameErr = s.frameErr := by
  cases exec_effect _ s t hx with
  | fsBodybDamaged => exact absurd rfl hp
  | _ => rfl

/-! ## What an operation emits, and what it does to `standby` (R28, R39) -/

/-- The output events of operation `i` run in state `s` (30_encoding.md R53, R56; 60_exceptions.md R101). -/
def opEvents (i : Instr) (s : State) : List OutEvent :=
  match i with
  | .fsTrig => [.tx 0x30]
  | .fsFixf => [.fault .read]
  | .fsHuntf => [.fault .read]
  | .fsBodyf => [.fault .read]
  | .decStr => if Config.structDecode (frameBody s) = none then [.fault .decode] else []
  | .mapDrv _ =>
    if s.flag0 = true ∨ s.flag1 = true then
      [.drive .a s.flag0 (rightDuty s.params.baseSpeed s.turnReg),
        .drive .b s.flag1 (leftDuty s.params.baseSpeed s.turnReg)]
    else []
  | .fsHunt => []
  | .fsFixb _ => []
  | .fsSent => []
  | .fsSkip _ => []
  | .fsBodyb _ => []
  | .decRaw => []
  | .pidStep _ => []

theorem exec_emits (i : Instr) (s t : State) (hx : exec i s = .next t) : Emits s t (opEvents i s) := by
  cases exec_effect i s t hx with
  | fsTrig => exact ⟨rfl, rfl⟩
  | fsFixf => exact ⟨rfl, rfl⟩
  | fsHuntf => exact ⟨rfl, rfl⟩
  | fsBodyfMore => exact ⟨rfl, rfl⟩
  | fsBodyfLast => exact ⟨rfl, rfl⟩
  | decStrFail _ h => rw [opEvents, if_pos h]; exact ⟨rfl, rfl⟩
  | decStrRecord _ r h => simp [opEvents, h, Emits]
  | mapDrive _ _ h => simp [opEvents, h, Emits]
  | mapStop _ _ h0 h1 => simp [opEvents, h0, h1, Emits]
  | _ => exact ⟨(List.append_nil _).symm, (List.append_nil _).symm⟩

/-- The stage of the report that operation `i` run in state `s` makes, if it makes one (R57, R101). -/
def reportedStage (i : Instr) (s : State) : Option Stage :=
  match i with
  | .fsFixf => some .read
  | .fsHuntf => some .read
  | .fsBodyf => some .read
  | .decStr => if Config.structDecode (frameBody s) = none then some .decode else none
  | _ => none

theorem opEvents_stage (i : Instr) (s : State) : (opEvents i s).findSome? OutEvent.stage? = reportedStage i s := by
  cases i with
  | decStr => simp only [opEvents, reportedStage]; split <;> rfl
  | mapDrv m => simp only [opEvents, reportedStage]; split <;> rfl
  | _ => rfl

/-- An operation other than MAP.DRV writes `standby` exactly as the report it makes does (60_exceptions.md R102). -/
theorem exec_standby (i : Instr) (s t : State) (hx : exec i s = .next t) (hi : ∀ m, i ≠ .mapDrv m) :
    t.standby = if (reportedStage i s).isSome then standbyAfterFault s else s.standby := by
  cases exec_effect i s t hx with
  | mapDrive m => exact absurd rfl (hi m)
  | mapStop m => exact absurd rfl (hi m)
  | decStrFail _ h => simp [reportedStage, h, faultAndAbandon]
  | decStrRecord _ r h => simp [reportedStage, h]
  | _ => rfl

/-- MAP.DRV engages standby below the range threshold and in the stop case (44_drive_map.md R92, R94). -/
theorem exec_mapDrv_standby (m : FrameMode) (s t : State) (hx : exec (.mapDrv m) s = .next t) :
    t.standby = true ↔ s.rangeIn.toNat < 2000 ∨ (s.flag0 = false ∧ s.flag1 = false) := by
  cases exec_effect _ s t hx with
  | mapDrive _ _ h =>
    have hstop : ¬ (s.flag0 = false ∧ s.flag1 = false) := by simpa [or_iff_not_imp_left] using h
    simp only [commitDrive_standby, rangeGate_iff, hstop, or_false]
  | mapStop _ _ h0 h1 => simp [h0, h1]

/-- Settles O42, element by element. -/
theorem eachElementHasItsWritersOnly : Obligations.EachElementHasItsWritersOnly := by
  intro i s t hx
  refine ⟨exec_control i s t hx, exec_decodeLatches i s t hx, exec_motors i s t hx, exec_buf i s t hx,
    exec_count_mark i s t hx, ?_, exec_mark i s t hx, ?_, ?_, exec_environment i s t hx⟩
  · rintro rfl
    exact exec_decStr_count_mark s t hx
  · rintro ⟨b, rfl⟩
    exact exec_fsBodyb_mark b s t hx
  · intro hm hno
    have hnone : reportedStage i s = none := by
      rw [← opEvents_stage, List.findSome?_eq_none_iff]
      intro e he
      cases e with
      | fault st => exact absurd he (hno _ (exec_emits i s t hx) st)
      | _ => rfl
    simp [exec_standby i s t hx hm, hnone]

/-! ## The strobes of an operation (R37, R38) -/

theorem opEvents_drives_iff (n : Motor) (i : Instr) (s : State) :
    (opEvents i s).any (OutEvent.drives n) = true ↔
      (∃ m, i = .mapDrv m) ∧ (s.flag0 = true ∨ s.flag1 = true) := by
  cases i with
  | mapDrv m => by_cases h : s.flag0 = true ∨ s.flag1 = true <;> cases n <;> simp [opEvents, h]
  | decStr => by_cases h : Config.structDecode (frameBody s) = none <;> simp [opEvents, h]
  | _ => simp [opEvents]

theorem reportedStage_read_iff (i : Instr) (s : State) :
    reportedStage i s = some .read ↔ i = .fsFixf ∨ i = .fsHuntf ∨ i = .fsBodyf := by
  cases i with
  | decStr => by_cases h : Config.structDecode (frameBody s) = none <;> simp [reportedStage, h]
  | _ => simp [reportedStage]

theorem reportedStage_decode_iff (i : Instr) (s : State) :
    reportedStage i s = some .decode ↔ i = .decStr ∧ Config.structDecode (frameBody s) = none := by
  cases i <;> simp [reportedStage]

/-- No operation reports a fault of stage Frame (60_exceptions.md R109). -/
theorem reportedStage_isSome_iff (i : Instr) (s : State) :
    (reportedStage i s).isSome = true ↔ reportedStage i s = some .read ∨ reportedStage i s = some .decode := by
  cases i with
  | decStr => by_cases h : Config.structDecode (frameBody s) = none <;> simp [reportedStage, h]
  | _ => simp [reportedStage]

/-- The fault port shows a stage's code exactly for that stage (R57). -/
theorem map_code_eq_some_iff (o : Option Stage) (st : Stage) : o.map Stage.code = some st.code ↔ o = some st := by
  have hinj : Function.Injective Stage.code := fun a b h => by
    simpa [stage_ofCode_code] using congrArg Stage.ofCode h
  exact (Option.map_injective hinj).eq_iff (b := some st)

/-- What engages standby: outside MAP.DRV it stays engaged, or a report engages it under ASSERT (R102). -/
theorem exec_standby_iff (i : Instr) (s t : State) (hx : exec i s = .next t) (hi : ∀ m, i ≠ .mapDrv m) :
    t.standby = true ↔
      s.standby = true ∨ ((reportedStage i s).isSome = true ∧ s.params.faultStandby = .assert) := by
  rw [exec_standby i s t hx hi, standbyAfterFault_eq]
  by_cases hr : (reportedStage i s).isSome = true <;> by_cases ha : s.params.faultStandby = .assert <;> simp [hr, ha]

/-- Settles O41: the strobes are those of `opEvents`, and `standby` is written by a report or by MAP.DRV. -/
theorem strobesFollowTheOperation : Obligations.StrobesFollowTheOperation := by
  intro i s t hs hx
  have hev : t.stepEvents = opEvents i s := by simpa [hs] using (exec_emits i s t hx).1
  have hmotor (n : Motor) := hev ▸ opEvents_drives_iff n i s
  have hstage : faultStage t = (reportedStage i s).map Stage.code := by rw [faultStage, hev, opEvents_stage]
  have hvalid : faultValid t = (reportedStage i s).isSome := by rw [faultValid, hstage, Option.isSome_map]
  refine ⟨?_, hmotor .a, ?_, ?_, ?_, ?_, ?_⟩
  · exact Bool.eq_iff_iff.2 ((hmotor .a).trans (hmotor .b).symm)
  · rw [hvalid, reportedStage_isSome_iff, reportedStage_read_iff, reportedStage_decode_iff, or_assoc, or_assoc]
  · rw [hstage, ← reportedStage_read_iff i s]
    exact map_code_eq_some_iff _ .read
  · rw [hstage, ← reportedStage_decode_iff i s]
    exact map_code_eq_some_iff _ .decode
  · rw [standbyCall_enable, hvalid]
    refine and_congr_right fun hoff => ?_
    by_cases hm : ∃ m, i = .mapDrv m
    · obtain ⟨m, rfl⟩ := hm
      simp [exec_mapDrv_standby m s t hx, reportedStage]
    · simp [exec_standby_iff i s t hx (not_exists.1 hm), hm, hoff]
  · rw [standbyCall_disable]
    refine and_congr_right fun hon => ?_
    by_cases hm : ∃ m, i = .mapDrv m
    · obtain ⟨m, rfl⟩ := hm
      rw [← Bool.not_eq_true, exec_mapDrv_standby m s t hx]
      simp [or_iff_not_imp_left]
    · simp [exec_standby i s t hx (not_exists.1 hm), hm, hon, standbyAfterFault_eq]

end Sys2Proof.Machine
end

section
/-! # Runs, resets and the events a step consumes (10_state.md R18, R34, R35, R40) -/

namespace Sys2Proof.Machine

open Sys2Proof.Claims

/-! ## Control state and runs -/

/-- Settles O43: only PID.STEP writes ControlState, and it is selected in phase PID alone. -/
theorem controlStateChangesOnlyInPhasePid : Obligations.ControlStateChangesOnlyInPhasePid := by
  intro s t hst ho hp
  obtain ⟨hr, -⟩ | ⟨-, -, -, -, rfl⟩ | ⟨-, -, -, k, i, hk, hi, hx⟩ := step_cases s t hst
  · simp [(rst_eq_false_iff s).2 ho] at hr
  · exact ⟨takeEvent_integral _, takeEvent_lastError _⟩
  · have hne (m : FrameMode) : i ≠ .pidStep m := by
      rintro rfl
      exact hp (selected_phase_mode s k _ hk hi).1
    obtain ⟨⟨hint, hlast⟩, -⟩ := exec_control i _ t hx hne
    exact ⟨by simpa using hint, by simpa using hlast⟩

/-- A block that answers a step has been reset: before, or by the step. -/
theorem step_resetDone (s t : State) (hst : step s = .next t) : t.resetDone = true := by
  obtain ⟨-, rfl⟩ | ⟨-, hd, -, -, rfl⟩ | ⟨-, hd, -, k, i, -, -, hx⟩ := step_cases s t hst
  · rfl
  · simpa using hd
  · obtain ⟨-, -, -, hdone⟩ := exec_environment i _ t hx
    simpa [hd] using hdone

/-- Settles O50, by induction on the run. -/
theorem reachableStatesMeetTheInvariant : Obligations.ReachableStatesMeetTheInvariant := by
  intro s hs
  induction hs with
  | reset p r evs => exact ⟨resetWith_inv p r evs, rfl⟩
  | step s t _ hst ih => exact ⟨step_keeps_inv s t ih.1 hst, step_resetDone s t hst⟩

/-! ## Resets (R40, R114) -/

/-- Settles O13, by the state `applyReset` gives. -/
theorem resetStepGivesEveryResetValue : Obligations.ResetStepGivesEveryResetValue := by
  intro s ho
  refine ⟨_, step_of_rst s (by simp [rst, ho]), ?_⟩
  simp [Memory.read, unlistedByte, pending]

/-- Settles O14, field by field of `State.resetWith`. -/
theorem resetStateHoldsTheSpecsValues : Obligations.ResetStateHoldsTheSpecsValues := by
  refine ⟨?_, Config.params, Config.rangeAtReset, rfl, rfl, rfl⟩
  rintro p r s rfl
  exact ⟨rfl, rfl, rfl, rfl, rfl, rfl, fun _ => rfl, rfl, rfl, rfl, rfl, rfl, rfl, rfl, rfl, rfl, rfl, rfl⟩

/-! ## The events a step consumes (R34, R35, R121) -/

/-- A step that is no reset consumes the event it takes, and no operation touches the events after it. -/
theorem step_stimulus (s t : State) (hr : rst s = false) (hst : step s = .next t) :
    t.stimulus = (takeEvent (settle s)).stimulus := by
  obtain ⟨hr', -⟩ | ⟨-, -, -, -, rfl⟩ | ⟨-, -, -, k, i, -, -, hx⟩ := step_cases s t hst
  · simp [hr] at hr'
  · rfl
  · obtain ⟨-, hstim, -, -⟩ := exec_environment i _ t hx
    exact hstim

/-- The step takes the event offered exactly in a transfer, or when it is an idle step. -/
theorem takes_offered_iff (s : State) (e : EnvEvent) (ho : offered s = some e) :
    takes s e = true ↔ rxTransfer s = true ∨ txTransfer s = true ∨ e = .idle := by
  cases e <;> simp [takes, rxTransfer, txTransfer, rxValid, txReady, ho]

/-- A transfer needs an event to be offered. -/
theorem transfer_offers (s : State) (h : rxTransfer s = true ∨ txTransfer s = true) : ∃ e, offered s = some e := by
  rw [← Option.ne_none_iff_exists']
  intro ho
  simp [rxTransfer, txTransfer, rxValid, txReady, ho] at h

/-- RANGE lines are no channel events. -/
theorem filter_pending (s : State) : (pending s).filter isChannelEvent = s.stimulus.filter isChannelEvent := by
  unfold pending
  generalize s.rangeIn = r
  induction s.stimulus generalizing r with
  | nil => rfl
  | cons e evs ih => cases e <;> simp [settleRange, ih, isChannelEvent]

/-- Settles O46, by the event the step takes. -/
theorem onlyATransferConsumesAChannelEvent : Obligations.OnlyATransferConsumesAChannelEvent := by
  intro s t ho hst
  rw [step_stimulus s t ((rst_eq_false_iff s).2 ho) hst, ← filter_pending s]
  have hhead : (pending s).head? = offered s := rfl
  constructor
  · intro h
    obtain ⟨e, he⟩ := transfer_offers s h
    have htake : takes s e = true := (takes_offered_iff s e he).2 (by tauto)
    rw [takeEvent_of_takes (settle s) e (hhead.trans he) (by simpa using htake)]
    rfl
  · intro hrx htx
    cases hs : pending s with
    | nil => rw [takeEvent_stimulus_nil (settle s) hs]
    | cons e rest =>
      have he : offered s = some e := by rw [← hhead, hs, List.head?_cons]
      have htake := takes_offered_iff s e he
      rw [takeEvent_stimulus_cons (settle s) e rest hs]
      by_cases hidle : e = .idle
      · simp [hidle, takes, isChannelEvent]
      · simp [htake, hrx, htx, hidle]

end Sys2Proof.Machine
end

section
/-! # What a step cannot observe (10_state.md R19 to R21, R36; 20_memory.md R43)

A step of two states that show the sequencer the same is one case split (`step_agree`); the level of `range_in` and the
stale registers are then followed through each operation. -/

namespace Sys2Proof.Machine

open Sys2Proof.Claims

/-! ## Two steps side by side -/

/-- The outcomes are of one kind: next states in relation `R`, or the same fault, or the same refusal. -/
def OutcomesAgree (R : State → State → Prop) (o o' : Host.Outcome State Fault Refusal) : Prop :=
  match o, o' with
  | .next t, .next t' => R t t'
  | .fault f, .fault f' => f = f'
  | .refused f, .refused f' => f = f'
  | _, _ => False

/-- States that offer the same step: the same reset, and the same key formed. -/
structure SameSelection (s s' : State) : Prop where
  rst : rst s = rst s'
  resetDone : s.resetDone = s'.resetDone
  phase : s.phase = s'.phase
  formKey : formKey s = formKey s'

theorem step_agree {R : State → State → Prop} {s s' : State} (h : SameSelection s s')
    (hreset : R (applyReset (settle s)) (applyReset (settle s')))
    (htake : R (takeEvent (settle s)) (takeEvent (settle s')))
    (hexec : ∀ k i, formKey s = some k → decode k = .ok i →
      OutcomesAgree R (exec i (takeEvent (settle s))) (exec i (takeEvent (settle s')))) :
    OutcomesAgree R (step s) (step s') := by
  unfold step runSettled operate
  simp only [rst_settle, settle_resetDone, settle_phase, formKey_settle, ← h.rst, ← h.resetDone, ← h.phase, ← h.formKey]
  by_cases hr : rst s = true
  · simp only [hr, if_true]
    exact hreset
  · by_cases hd : s.resetDone = true
    · by_cases hp : s.phase = .halted
      · simp [hr, hd, hp, OutcomesAgree]
      · simp only [hr, hd, hp, if_true, if_false]
        cases hk : formKey s with
        | none => exact htake
        | some k =>
          dsimp only
          cases hi : decode k with
          | ok i => exact hexec k i hk hi
          | error c =>
            cases c with
            | noEvent => exact htake
            | notReceiving => exact htake
            | notTransmitting => exact htake
            | _ => rfl
    · simp [hr, hd, OutcomesAgree]

/-- What a state offers depends on the stimulus alone. -/
theorem settleRange_events (evs : List EnvEvent) (r r' : Half) : (settleRange evs r).1 = (settleRange evs r').1 := by
  cases evs with
  | nil => rfl
  | cons e evs => cases e <;> rfl

theorem offered_congr {s s' : State} (h : s.stimulus = s'.stimulus) : offered s = offered s' := by
  unfold offered
  rw [h, settleRange_events _ s.rangeIn s'.rangeIn]

theorem formKey_congr {s s' : State} (hp : s.phase = s'.phase) (hm : s.params = s'.params)
    (ho : s.stimulus = s'.stimulus) : formKey s = formKey s' := by
  unfold formKey receiveKey internalKey txReady
  rw [hp, hm, offered_congr ho]

theorem takes_congr {s s' : State} (hp : s.phase = s'.phase) (hm : s.params = s'.params) (e : EnvEvent) :
    takes s e = takes s' e := by
  cases e <;> simp only [takes, rxReady, txValid, hp, hm]

theorem sameSelection_of_eq {s s' : State} (hp : s.phase = s'.phase) (hm : s.params = s'.params)
    (ho : s.stimulus = s'.stimulus) (hd : s.resetDone = s'.resetDone) : SameSelection s s' where
  rst := by unfold rst; rw [offered_congr ho]
  resetDone := hd
  phase := hp
  formKey := formKey_congr hp hm ho

/-- The events left after a step's own depend on the phase, the parameters and the coming events. -/
theorem takeEvent_stimulus_congr {s s' : State} (hp : s.phase = s'.phase) (hm : s.params = s'.params)
    (ho : s.stimulus = s'.stimulus) : (takeEvent s).stimulus = (takeEvent s').stimulus := by
  cases hs : s.stimulus with
  | nil => rw [takeEvent_stimulus_nil s hs, takeEvent_stimulus_nil s' (ho ▸ hs)]
  | cons e rest =>
    rw [takeEvent_stimulus_cons s e rest hs, takeEvent_stimulus_cons s' e rest (ho ▸ hs), takes_congr hp hm]

/-! ## The level of `range_in` -/

/-- The state with `range_in` at level `r`. -/
def State.withRange (s : State) (r : Half) : State := { s with rangeIn := r }

/-- The states are equal but for the level of `range_in`. -/
def SameButRange (s s' : State) : Prop := s = s'.withRange s.rangeIn

theorem sameButRange_withRange (s : State) (r : Half) : SameButRange s (s.withRange r) := rfl

theorem settle_withRange (s : State) (r : Half) :
    settle (s.withRange r) = (settle s).withRange (settleRange s.stimulus r).2 := by
  unfold settle State.withRange
  rw [settleRange_events s.stimulus r s.rangeIn]

theorem takeEvent_withRange (s : State) (r : Half) : takeEvent (s.withRange r) = (takeEvent s).withRange r := by
  conv_rhs => rw [takeEvent_eq s]
  rw [takeEvent_eq, takeEvent_stimulus_congr (s := s.withRange r) (s' := s) rfl rfl rfl]
  rfl

theorem commitStructured_withRange (a : Option StructRecord) (s : State) (r : Half) :
    commitStructured a (s.withRange r) = (commitStructured a s).withRange r := by
  cases a <;> rfl

theorem ite_withRange (c : Prop) [Decidable c] (s t : State) (r : Half) :
    (if c then s else t).withRange r = if c then s.withRange r else t.withRange r :=
  apply_ite (State.withRange · r) c s t

/-- An operation other than MAP.DRV does not sample `range_in` (44_drive_map.md R92). -/
theorem exec_withRange (i : Instr) (s : State) (r : Half) (hi : ∀ m, i ≠ .mapDrv m) :
    exec i (s.withRange r) = thenNext (exec i s) (·.withRange r) := by
  have missing (hc : ¬ s.cnt.toNat < 74) : 74 ≤ (s.withRange r).cnt.toNat := Nat.not_lt.1 hc
  cases i with
  | mapDrv m => exact absurd rfl (hi m)
  | fsFixb b =>
    by_cases hc : s.cnt.toNat < 74
    · rw [exec_fsFixb b s hc, exec_fsFixb b (s.withRange r) hc, thenNext_next, ite_withRange]
      rfl
    · rw [exec_fsFixb_no_such_byte b s (missing hc), exec_fsFixb_no_such_byte b _ (missing hc), thenNext_fault]
  | fsBodyb b =>
    by_cases hc : s.cnt.toNat < 74
    · rw [exec_fsBodyb b s hc, exec_fsBodyb b (s.withRange r) hc, thenNext_next, ite_withRange,
        ite_withRange]
      rfl
    · rw [exec_fsBodyb_no_such_byte b s (missing hc), exec_fsBodyb_no_such_byte b _ (missing hc), thenNext_fault]
  | fsBodyf =>
    by_cases hc : s.cnt.toNat < 74
    · rw [exec_fsBodyf s hc, exec_fsBodyf (s.withRange r) hc, thenNext_next, ite_withRange]
      rfl
    · rw [exec_fsBodyf_no_such_byte s (missing hc), exec_fsBodyf_no_such_byte _ (missing hc), thenNext_fault]
  | decStr =>
    rw [exec_decStr, exec_decStr, commitStructured_withRange]
    rfl
  | pidStep m =>
    rw [exec_pidStep, exec_pidStep, thenNext_next, ite_withRange]
    rfl
  | _ => rfl

theorem outcomesAgree_thenNext {R : State → State → Prop} {f : State → State} (h : ∀ t, R t (f t))
    (o : Host.Outcome State Fault Refusal) : OutcomesAgree R o (thenNext o f) := by
  cases o with
  | next t => exact h t
  | fault r => rfl
  | refused r => rfl

/-- Outside phase MAP the level of `range_in` is not observed, and at most it is still different after the step. -/
theorem step_withRange (s : State) (r : Half) (hp : s.phase ≠ .map) :
    OutcomesAgree SameButRange (step s) (step (s.withRange r)) := by
  refine step_agree (sameSelection_of_eq rfl rfl rfl rfl) ?_ ?_ fun k i hk hi => ?_
  · rw [settle_withRange]
    exact sameButRange_withRange (applyReset (settle s)) _
  · rw [settle_withRange, takeEvent_withRange]
    exact sameButRange_withRange _ _
  · have hne (m : FrameMode) : i ≠ .mapDrv m := by
      rintro rfl
      exact hp (selected_phase_mode s k _ hk hi).1
    rw [settle_withRange, takeEvent_withRange, exec_withRange i _ _ hne]
    exact outcomesAgree_thenNext (sameButRange_withRange · _) _

/-- Settles O47, by `step_withRange`. -/
theorem rangeMattersOnlyInPhaseMap : Obligations.RangeMattersOnlyInPhaseMap := step_withRange

end Sys2Proof.Machine
end

section
/-! # Stale registers are never observed (10_state.md R19 to R21, 20_memory.md R43)

Two states that agree in what is live are one state under two contents of the stale registers, so each operation is run
once on a state and once on it with other contents. -/

namespace Sys2Proof.Machine

open Sys2Proof.Claims

/-! ## States with other stale contents -/

/-- Contents of the registers that can be stale: the latches and the buffer. -/
structure Stale where
  errReg : Word
  flag0 : Bool
  flag1 : Bool
  turnReg : Word
  buf : Memory

def State.stale (s : State) : Stale := ⟨s.errReg, s.flag0, s.flag1, s.turnReg, s.buf⟩

/-- The state with other contents in the registers that can be stale. -/
def State.withStale (s : State) (x : Stale) : State :=
  { s with errReg := x.errReg, flag0 := x.flag0, flag1 := x.flag1, turnReg := x.turnReg, buf := x.buf }

@[simp] theorem withStale_cnt (s : State) (x : Stale) : (s.withStale x).cnt = s.cnt := rfl

/-- How many bytes of the buffer, from index 0 on, are live (20_memory.md R43). -/
def liveBytes (s : State) : Nat :=
  match s.phase, s.params.frameMode with
  | .recv, _ => s.cnt.toNat
  | .body, _ => s.cnt.toNat
  | .decode, .fixed => 5
  | .decode, .delimited => 74
  | _, _ => 0

theorem byteLive_iff (s : State) (k : Nat) : byteLive s k = true ↔ k < liveBytes s := by
  unfold byteLive liveBytes
  cases s.phase <;> cases s.params.frameMode <;> simp

/-- The first `n` bytes of two buffers agree. -/
def BytesAgree (n : Nat) (m m' : Memory) : Prop := ∀ k < n, Memory.read m k = Memory.read m' k

theorem bytesAgree_zero (m m' : Memory) : BytesAgree 0 m m' := fun k hk => absurd hk (Nat.not_lt_zero k)

/-- The byte stored next to the bytes that agree agrees too. -/
theorem BytesAgree.write {n : Nat} {m m' : Memory} (h : BytesAgree n m m') (hm : Memory.wf m = true)
    (hm' : Memory.wf m' = true) (b : Byte) : BytesAgree (n + 1) (Memory.write m n b) (Memory.write m' n b) := by
  intro k hk
  rw [read_write m n b hm, read_write m' n b hm']
  split
  · rfl
  · exact h k (by omega)

/-- The contents agree with the state's in what is live in its phase. -/
structure LiveIn (s : State) (x : Stale) : Prop where
  errReg : s.phase = .pid → s.errReg = x.errReg
  flags : s.phase = .pid ∨ s.phase = .map → s.flag0 = x.flag0 ∧ s.flag1 = x.flag1
  turnReg : s.phase = .map → s.turnReg = x.turnReg
  buf : BytesAgree (liveBytes s) s.buf x.buf

theorem LiveIn.liveAgree {s : State} {x : Stale} (h : LiveIn s x) : LiveAgree s (s.withStale x) where
  params := rfl
  integral := rfl
  lastError := rfl
  cnt := rfl
  frameErr := rfl
  phase := rfl
  motaFwd := rfl
  motaDuty := rfl
  motbFwd := rfl
  motbDuty := rfl
  standby := rfl
  stimulus := rfl
  rangeIn := rfl
  resetDone := rfl
  stepEvents := rfl
  trace := rfl
  errReg := h.errReg
  flag0 := fun hp => (h.flags hp).1
  flag1 := fun hp => (h.flags hp).2
  turnReg := h.turnReg
  buf := fun k hk => h.buf k ((byteLive_iff s k).1 hk)

theorem LiveAgree.liveIn {s s' : State} (h : LiveAgree s s') : LiveIn s s'.stale where
  errReg := h.errReg
  flags := fun hp => ⟨h.flag0 hp, h.flag1 hp⟩
  turnReg := h.turnReg
  buf := fun k hk => h.buf k ((byteLive_iff s k).2 hk)

/-- States that agree in what is live differ in the stale registers alone. -/
theorem LiveAgree.eq_withStale {s s' : State} (h : LiveAgree s s') : s' = s.withStale s'.stale := by
  obtain ⟨params, integral, lastError, cnt, frameErr, phase, motaFwd, motaDuty, motbFwd, motbDuty, standby, stimulus,
    rangeIn, resetDone, stepEvents, trace, -⟩ := h
  simp only [State.withStale, State.stale, *]

/-- Where no latch is live, the live bytes decide. -/
theorem LiveIn.of_bytes {s : State} {x : Stale} (hbuf : BytesAgree (liveBytes s) s.buf x.buf)
    (hp : s.phase ≠ .pid := by nofun) (hm : s.phase ≠ .map := by nofun) : LiveIn s x where
  errReg := fun h => absurd h hp
  flags := fun h => (h.elim hp hm).elim
  turnReg := fun h => absurd h hm
  buf := hbuf

/-! ## Operations -/

/-- The states agree in what is live, and their buffers are canonical (log 11). -/
def AgreeLive (s s' : State) : Prop := LiveAgree s s' ∧ Memory.wf s.buf = true ∧ Memory.wf s'.buf = true

theorem outcomesAgree_live {t : State} (x : Stale) (h : LiveIn t x) (hw : Memory.wf t.buf = true)
    (hw' : Memory.wf x.buf = true) : OutcomesAgree AgreeLive (.next t) (.next (t.withStale x)) :=
  ⟨h.liveAgree, hw, hw'⟩

theorem outcomesAgree_ite {R : State → State → Prop} {c : Prop} [Decidable c] {s s' t t' : State}
    (ht : c → OutcomesAgree R (.next s) (.next s')) (he : ¬ c → OutcomesAgree R (.next t) (.next t')) :
    OutcomesAgree R (.next (if c then s else t)) (.next (if c then s' else t')) := by
  by_cases h : c
  · simpa only [if_pos h] using ht h
  · simpa only [if_neg h] using he h

/-- The contents after a byte is stored. -/
def Stale.store (x : Stale) (k : Nat) (b : Byte) : Stale := { x with buf := Memory.write x.buf k b }

/-- After a byte is stored at the counter, no more than the bytes before it and itself is live. -/
theorem outcomesAgree_stored {t : State} {n : Nat} {m : Memory} {x : Stale} (b : Byte) (h : BytesAgree n m x.buf)
    (hw : Memory.wf m = true) (hw' : Memory.wf x.buf = true) (hn : n < 74) (hbuf : t.buf = Memory.write m n b)
    (hlive : liveBytes t ≤ n + 1) (hp : t.phase ≠ .pid := by nofun) (hm : t.phase ≠ .map := by nofun) :
    OutcomesAgree AgreeLive (.next t) (.next (t.withStale (x.store n b))) := by
  refine outcomesAgree_live _ (.of_bytes ?_ hp hm) ?_ (write_wf x.buf n b hw' hn)
  · rw [hbuf]
    exact fun k hk => h.write hw hw' b k (by omega)
  · rw [hbuf]
    exact write_wf m n b hw hn

theorem frameBody_withStale (s : State) (x : Stale) (h : BytesAgree 74 s.buf x.buf) :
    frameBody (s.withStale x) = frameBody s := funext fun k => (h k k.isLt).symm

theorem rawError_withStale (s : State) (x : Stale) (h : BytesAgree 5 s.buf x.buf) :
    rawError (s.withStale x) = rawError s := by
  have hb (k : Fin 74) (hk : k.val < 5) : memRead (s.withStale x) k = memRead s k := (h k hk).symm
  rw [rawError, rawError, hb 0 (by decide), hb 1 (by decide), hb 2 (by decide), hb 3 (by decide), hb 4 (by decide)]

/-- Where nothing is live afterwards, the contents may be any. -/
theorem outcomesAgree_dead {t : State} {x : Stale} (hw : Memory.wf t.buf = true) (hw' : Memory.wf x.buf = true)
    (hlive : liveBytes t = 0) (hp : t.phase ≠ .pid := by nofun) (hm : t.phase ≠ .map := by nofun) :
    OutcomesAgree AgreeLive (.next t) (.next (t.withStale x)) :=
  outcomesAgree_live x (.of_bytes (hlive ▸ bytesAgree_zero _ _) hp hm) hw hw'

section
variable {s : State} {x : Stale} (h : LiveIn s x) (hw : Memory.wf s.buf = true) (hw' : Memory.wf x.buf = true)
include h

/-- In RECV and BODY the bytes below the counter are live. -/
theorem LiveIn.frame_bytes (hp : s.phase = .recv ∨ s.phase = .body) : BytesAgree s.cnt.toNat s.buf x.buf := by
  have hbytes := h.buf
  obtain hr | hb := hp
  · simpa only [liveBytes, hr] using hbytes
  · simpa only [liveBytes, hb] using hbytes

theorem LiveIn.fixed_frame (hp : s.phase = .decode) (hm : s.params.frameMode = .fixed) :
    BytesAgree 5 s.buf x.buf := by
  have hbytes := h.buf
  simpa only [liveBytes, hp, hm] using hbytes

theorem LiveIn.delimited_frame (hp : s.phase = .decode) (hm : s.params.frameMode = .delimited) :
    BytesAgree 74 s.buf x.buf := by
  have hbytes := h.buf
  simpa only [liveBytes, hp, hm] using hbytes

include hw hw'

theorem exec_fsFixb_withStale (b : Byte) (hp : s.phase = .recv) (hm : s.params.frameMode = .fixed) :
    OutcomesAgree AgreeLive (exec (.fsFixb b) s) (exec (.fsFixb b) (s.withStale x)) := by
  have hb := h.frame_bytes (.inl hp)
  by_cases hc : s.cnt.toNat < 74
  · rw [exec_fsFixb b s hc, exec_fsFixb b (s.withStale x) hc]
    refine outcomesAgree_ite (fun h4 => ?_) fun _ => ?_
    · exact outcomesAgree_stored b hb hw hw' hc rfl (by simp [liveBytes, hm, h4])
    · exact outcomesAgree_stored b hb hw hw' hc rfl (count_succ_toNat s.cnt (by omega)).le
  · have hge := Nat.not_lt.1 hc
    rw [exec_fsFixb_no_such_byte b s hge, exec_fsFixb_no_such_byte b (s.withStale x) hge]
    rfl

theorem exec_fsBodyb_withStale (b : Byte) (hp : s.phase = .body) (hm : s.params.frameMode = .delimited) :
    OutcomesAgree AgreeLive (exec (.fsBodyb b) s) (exec (.fsBodyb b) (s.withStale x)) := by
  have hb := h.frame_bytes (.inr hp)
  by_cases hc : s.cnt.toNat < 74
  · rw [exec_fsBodyb b s hc, exec_fsBodyb b (s.withStale x) hc]
    refine outcomesAgree_ite (fun _ => ?_) fun h73 => outcomesAgree_ite (fun _ => ?_) fun _ => ?_
    · exact outcomesAgree_stored b hb hw hw' hc rfl (count_succ_toNat s.cnt (by omega)).le
    · exact outcomesAgree_stored b hb hw hw' hc rfl (by simp only [liveBytes, hm, withStale_cnt]; omega)
    · exact outcomesAgree_stored b hb hw hw' hc rfl (Nat.zero_le _)
  · have hge := Nat.not_lt.1 hc
    rw [exec_fsBodyb_no_such_byte b s hge, exec_fsBodyb_no_such_byte b (s.withStale x) hge]
    rfl

theorem exec_fsBodyf_withStale (hp : s.phase = .body) :
    OutcomesAgree AgreeLive (exec .fsBodyf s) (exec .fsBodyf (s.withStale x)) := by
  have hb := h.frame_bytes (.inr hp)
  by_cases hc : s.cnt.toNat < 74
  · rw [exec_fsBodyf s hc, exec_fsBodyf (s.withStale x) hc]
    refine outcomesAgree_ite (fun _ => ?_) fun _ => ?_
    · exact outcomesAgree_stored 0 hb hw hw' hc rfl (count_succ_toNat s.cnt (by omega)).le
    · exact outcomesAgree_stored 0 hb hw hw' hc rfl (Nat.zero_le _)
  · have hge := Nat.not_lt.1 hc
    rw [exec_fsBodyf_no_such_byte s hge, exec_fsBodyf_no_such_byte (s.withStale x) hge]
    rfl

/-- DEC.RAW reads the five bytes of the frame only (42_decode.md R80). -/
theorem exec_decRaw_withStale (hp : s.phase = .decode) (hm : s.params.frameMode = .fixed) :
    OutcomesAgree AgreeLive (exec .decRaw s) (exec .decRaw (s.withStale x)) := by
  have hbytes := h.fixed_frame hp hm
  have hread (k : Fin 74) (hk : k.val < 5) : memRead (s.withStale x) k = memRead s k := (hbytes k hk).symm
  rw [exec_decRaw, exec_decRaw, rawError_withStale s x hbytes, hread 0 (by decide), hread 1 (by decide)]
  exact outcomesAgree_live
    { x with
      errReg := wrap32 (rawError s), flag0 := directionFlag (memRead s 0), flag1 := directionFlag (memRead s 1) }
    ⟨fun _ => rfl, fun _ => ⟨rfl, rfl⟩, nofun, bytesAgree_zero _ _⟩ hw hw'

/-- DEC.STR reads the 74 bytes of the body only (R81). -/
theorem exec_decStr_withStale (hp : s.phase = .decode) (hm : s.params.frameMode = .delimited) :
    OutcomesAgree AgreeLive (exec .decStr s) (exec .decStr (s.withStale x)) := by
  rw [exec_decStr, exec_decStr, frameBody_withStale s x (h.delimited_frame hp hm)]
  cases Config.structDecode (frameBody s) with
  | none => exact outcomesAgree_dead hw hw' rfl
  | some r =>
    exact outcomesAgree_live { x with errReg := r.error, flag0 := r.flag0, flag1 := r.flag1 }
      ⟨fun _ => rfl, fun _ => ⟨rfl, rfl⟩, nofun, bytesAgree_zero _ _⟩ hw hw'

/-- PID.STEP reads no latch but `err_reg` (43_pid.md R84). -/
theorem exec_pidStep_withStale (m : FrameMode) (hp : s.phase = .pid) :
    OutcomesAgree AgreeLive (exec (.pidStep m) s) (exec (.pidStep m) (s.withStale x)) := by
  have hflags := h.flags (.inl hp)
  obtain ⟨e, f0, f1, tr, buf⟩ := x
  obtain rfl : s.errReg = e := h.errReg hp
  rw [exec_pidStep, exec_pidStep]
  refine outcomesAgree_ite (fun _ => outcomesAgree_dead (t := halt s) hw hw' rfl) fun _ => ?_
  exact outcomesAgree_live ⟨s.errReg, f0, f1, turn32 s.errReg s.integral s.lastError, buf⟩
    ⟨nofun, fun _ => hflags, fun _ => rfl, bytesAgree_zero _ _⟩ hw hw'

/-- MAP.DRV reads the flags and `turn_reg` (44_drive_map.md R93, R94), which are live in MAP. -/
theorem exec_mapDrv_withStale (m : FrameMode) (hp : s.phase = .map) :
    OutcomesAgree AgreeLive (exec (.mapDrv m) s) (exec (.mapDrv m) (s.withStale x)) := by
  obtain ⟨e, f0, f1, tr, buf⟩ := x
  obtain ⟨rfl, rfl⟩ : s.flag0 = f0 ∧ s.flag1 = f1 := h.flags (.inr hp)
  obtain rfl : s.turnReg = tr := h.turnReg hp
  cases hd : directions s.flag0 s.flag1 with
  | none =>
    rw [exec_mapDrv_stop m s hd, exec_mapDrv_stop m (s.withStale ⟨e, s.flag0, s.flag1, s.turnReg, buf⟩) hd]
    exact outcomesAgree_dead (t := commitStop s) hw hw' rfl
  | some d =>
    rw [exec_mapDrv_drive m s d.1 d.2 hd,
      exec_mapDrv_drive m (s.withStale ⟨e, s.flag0, s.flag1, s.turnReg, buf⟩) d.1 d.2 hd]
    exact outcomesAgree_dead (t := commitDrive _ _ _ _ _ s) hw hw' rfl

end

/-- An operation run in its own phase and mode does not observe what is not live there. -/
theorem exec_withStale (i : Instr) (s : State) (x : Stale) (hp : s.phase = i.op.phase)
    (hm : ∀ m ∈ i.op.mode, s.params.frameMode = m) (h : LiveIn s x) (hw : Memory.wf s.buf = true)
    (hw' : Memory.wf x.buf = true) : OutcomesAgree AgreeLive (exec i s) (exec i (s.withStale x)) := by
  cases i with
  | fsTrig => exact outcomesAgree_dead hw hw' rfl
  | fsHunt => exact outcomesAgree_dead hw hw' rfl
  | fsFixb b => exact exec_fsFixb_withStale h hw hw' b hp (hm _ rfl)
  | fsFixf => exact outcomesAgree_dead hw hw' rfl
  | fsSent => exact outcomesAgree_dead hw hw' rfl
  | fsSkip b => exact outcomesAgree_dead hw hw' rfl
  | fsHuntf => exact outcomesAgree_dead hw hw' rfl
  | fsBodyb b => exact exec_fsBodyb_withStale h hw hw' b hp (hm _ rfl)
  | fsBodyf => exact exec_fsBodyf_withStale h hw hw' hp
  | decRaw => exact exec_decRaw_withStale h hw hw' hp (hm _ rfl)
  | decStr => exact exec_decStr_withStale h hw hw' hp (hm _ rfl)
  | pidStep m => exact exec_pidStep_withStale h hw hw' m hp
  | mapDrv m => exact exec_mapDrv_withStale h hw hw' m hp

/-! ## Steps -/

theorem takeEvent_withStale (s : State) (x : Stale) : takeEvent (s.withStale x) = (takeEvent s).withStale x := by
  conv_rhs => rw [takeEvent_eq s]
  rw [takeEvent_eq, takeEvent_stimulus_congr (s := s.withStale x) (s' := s) rfl rfl rfl]
  rfl

theorem LiveIn.takeEvent_settle {s : State} {x : Stale} (h : LiveIn s x) : LiveIn (takeEvent (settle s)) x := by
  rw [takeEvent_eq]
  exact { h with }

/-- A step does not observe what is not live, and afterwards what is live agrees again. -/
theorem step_withStale (s : State) (x : Stale) (h : LiveIn s x) (hw : Memory.wf s.buf = true)
    (hw' : Memory.wf x.buf = true) : OutcomesAgree AgreeLive (step s) (step (s.withStale x)) := by
  have hsettle : settle (s.withStale x) = (settle s).withStale x := rfl
  have htake := h.takeEvent_settle
  have hbuf : Memory.wf (takeEvent (settle s)).buf = true := by simpa using hw
  refine step_agree (sameSelection_of_eq rfl rfl rfl rfl) ?_ ?_ fun k i hk hi => ?_
  · exact outcomesAgree_live (State.resetWith s.params s.rangeIn).stale (.of_bytes (bytesAgree_zero _ _)) rfl rfl
  · rw [hsettle, takeEvent_withStale]
    exact outcomesAgree_live x htake hbuf hw'
  · obtain ⟨hp, hm⟩ := selected_phase_mode s k i hk hi
    rw [hsettle, takeEvent_withStale]
    exact exec_withStale i _ x (by simpa using hp) (by simpa using hm) htake hbuf hw'

/-- Settles O52: states that agree in what is live are one state with two stale contents, so `step_withStale`. -/
theorem staleLatchesAndBytesAreUnobservable : Obligations.StaleLatchesAndBytesAreUnobservable := by
  intro s s' hw hw' h
  rw [h.eq_withStale]
  exact step_withStale s s'.stale h.liveIn hw hw'

end Sys2Proof.Machine
end

section
/-! # Keys by fields (30_encoding.md R58 to R64)

The encoder writes the key of an instruction's fields, and a key is its fields: decoding, encoding and R64's classes
are then statements about fields. -/

namespace Sys2Proof

open Sys2Proof.Machine

/-! ## The fields of a key (R58) -/

/-- A key made of fields, by bytes: the data is the low byte. -/
theorem makeKey_eq_keyOfBytes (m : FrameMode) (p : Phase) (e : Ev) (d : Byte) :
    makeKey m p e d = keyOfBytes (m.code ++ p.code ++ e.code ++ (0 : BitVec 2)) d := by
  apply BitVec.eq_of_getLsbD_eq
  intro i hi
  rw [makeKey, BitVec.getLsbD_append, keyOfBytes_getLsbD]
  simp [hi]

@[simp] theorem keyData_makeKey (m : FrameMode) (p : Phase) (e : Ev) (d : Byte) : keyData (makeKey m p e d) = d :=
  BitVec.extractLsb'_append_eq_right

@[simp] theorem keyRes_makeKey (m : FrameMode) (p : Phase) (e : Ev) (d : Byte) : keyRes (makeKey m p e d) = 0 := by
  unfold keyRes makeKey
  rw [BitVec.extractLsb'_append_eq_of_le (by decide), BitVec.extractLsb'_append_eq_right]

theorem FrameMode.code_ofCode (c : BitVec 1) : (FrameMode.ofCode c).code = c := by revert c; decide

theorem Phase.code_ofCode (c : BitVec 3) : (Phase.ofCode c).code = c := by revert c; decide

theorem Ev.code_ofCode (c : BitVec 2) : (Ev.ofCode c).code = c := by revert c; decide

/-- A key whose RES field is 0 is made of its fields. -/
theorem makeKey_of_keyRes (k : Key) (h : keyRes k = 0) :
    makeKey (keyMode k) (keyPhase k) (keyEv k) (keyData k) = k := by
  unfold makeKey keyMode keyPhase keyEv keyData
  rw [← h, FrameMode.code_ofCode, Phase.code_ofCode, Ev.code_ofCode, keyRes,
    BitVec.extractLsb'_append_extractLsb'_eq_extractLsb' (by decide),
    BitVec.extractLsb'_append_extractLsb'_eq_extractLsb' (by decide),
    BitVec.extractLsb'_append_extractLsb'_eq_extractLsb' (by decide),
    BitVec.extractLsb'_append_extractLsb'_eq_extractLsb' (by decide)]
  exact BitVec.extractLsb'_eq_self

/-! ## The fields of an instruction (R62) -/

/-- The EV field of an operation's row. -/
def Op.ev : Op → Ev
  | .fsTrig => .txa
  | .fsHunt => .none
  | .fsFixb => .rxb
  | .fsFixf => .rxf
  | .fsSent => .rxb
  | .fsSkip => .rxb
  | .fsHuntf => .rxf
  | .fsBodyb => .rxb
  | .fsBodyf => .rxf
  | .decRaw => .none
  | .decStr => .none
  | .pidStep => .none
  | .mapDrv => .none

/-- The MODE field of an instruction's key. -/
def Instr.mode : Instr → FrameMode
  | .pidStep m => m
  | .mapDrv m => m
  | i => i.op.mode.getD .fixed

/-- The DATA field of an instruction's key. -/
def Instr.data : Instr → Byte
  | .fsFixb b => b
  | .fsSkip b => b
  | .fsBodyb b => b
  | .fsSent => 0x7B
  | _ => 0

/-- Data written over a key without data is the data of the key. -/
theorem makeKey_or_dataField (m : FrameMode) (p : Phase) (e : Ev) (d : Byte) :
    makeKey m p e 0 ||| dataField d = makeKey m p e d := by
  simp [makeKey_eq_keyOfBytes, keyOfBytes, dataField]

/-- The encoder writes an instruction's fields. -/
theorem encode_eq_makeKey (i : Instr) : encode i = makeKey i.mode i.op.phase i.op.ev i.data := by
  cases i with
  | fsFixb b => exact makeKey_or_dataField .fixed .recv .rxb b
  | fsSkip b => exact makeKey_or_dataField .delimited .hunt .rxb b
  | fsBodyb b => exact makeKey_or_dataField .delimited .body .rxb b
  | pidStep m => cases m <;> rfl
  | mapDrv m => cases m <;> rfl
  | _ => rfl

/-- Only FS.SKIP of the sentinel has no key of its own (R63). -/
theorem wellFormed_iff (i : Instr) : i.wellFormed = true ↔ i ≠ .fsSkip 0x7B := by
  cases i <;> simp [Instr.wellFormed]

/-- Settles O1: the encoder makes the key the sequencer forms for the instruction, and of that key the decoder's laws
speak. -/
theorem decodeOfEncodeIsTheInstruction : Obligations.DecodeOfEncodeIsTheInstruction := by
  intro i hwf
  rw [encode_eq_makeKey]
  cases i with
  | fsTrig => exact decode_start_accepted
  | fsHunt => exact decode_start_delimited
  | fsFixb b => exact decode_recv_byte b
  | fsFixf => exact decode_recv_failed
  | fsSent => exact decode_hunt_byte 0x7B
  | fsSkip b =>
    have hb : b ≠ 0x7B := fun h => (wellFormed_iff _).1 hwf (congrArg Instr.fsSkip h)
    exact (decode_hunt_byte b).trans (by rw [if_neg hb])
  | fsHuntf => exact decode_hunt_failed
  | fsBodyb b => exact decode_body_byte b
  | fsBodyf => exact decode_body_failed
  | decRaw => exact decode_decode .fixed
  | decStr => exact decode_decode .delimited
  | pidStep m => exact decode_pid m
  | mapDrv m => exact decode_map m

/-! ## From keys to instructions -/

theorem accepts_iff (r : Row) (k : Key) : r.accepts k = true ↔ k &&& r.mask = r.pattern := beq_iff_eq

/-- What decodes is assembled from the key by a row that accepts it. -/
theorem decode_ok_row (k : Key) (i : Instr) (h : decode k = .ok i) :
    ∃ r ∈ rows, r.accepts k = true ∧ i = assemble r.op k := by
  unfold decode at h
  split at h <;> cases h
  next r hr =>
    obtain ⟨hmem, hacc⟩ := selectRow_accepts k r hr
    exact ⟨r, hmem, hacc, rfl⟩

theorem dataField_keyData (k : Key) : dataField (keyData k) = k &&& 0x00FF := by
  have hk : k = k.extractLsb' 8 8 ++ keyData k := by
    rw [keyData, BitVec.extractLsb'_append_extractLsb'_eq_extractLsb' (by decide)]
    exact BitVec.extractLsb'_eq_self.symm
  have hmask : (0x00FF : Key) = 0#8 ++ BitVec.allOnes 8 := by decide
  conv_rhs => rw [hk, hmask, BitVec.and_append, BitVec.and_zero, BitVec.and_allOnes]
  exact BitVec.setWidth_eq_append (by decide)

theorem modeField_keyMode (k : Key) : modeField (keyMode k) = k &&& 0x8000 := by
  have hk : k = k.extractLsb' 15 1 ++ k.extractLsb' 0 15 := by
    rw [BitVec.extractLsb'_append_extractLsb'_eq_extractLsb' (by decide)]
    exact BitVec.extractLsb'_eq_self.symm
  have hmask : (0x8000 : Key) = BitVec.allOnes 1 ++ 0#15 := by decide
  conv_rhs => rw [hk, hmask, BitVec.and_append, BitVec.and_zero, BitVec.and_allOnes]
  rw [modeField, keyMode, FrameMode.code_ofCode]
  rfl

/-- Encoding what a row assembles writes back the key's bits outside the row's mask. -/
theorem encode_assemble (k : Key) : ∀ r ∈ rows, encode (assemble r.op k) = r.pattern ||| (k &&& ~~~ r.mask) := by
  simp [rows, assemble, encode, patternOf, dataField_keyData, modeField_keyMode]

/-- Settles O2: a key is its row's pattern and the bits its mask leaves free, and these are the operand's. -/
theorem encodeOfDecodeIsTheKey : Obligations.EncodeOfDecodeIsTheKey := by
  intro k i h
  have hkey : encode i = k := by
    obtain ⟨r, hr, hacc, rfl⟩ := decode_ok_row k i h
    rw [encode_assemble k r hr, ← (accepts_iff r k).1 hacc, ← BitVec.and_or_distrib_left, BitVec.or_not_self,
      BitVec.and_allOnes]
  refine ⟨(wellFormed_iff i).2 ?_, hkey⟩
  rintro rfl
  have hsent : decode k = .ok .fsSent := hkey ▸ decode_hunt_byte 0x7B
  simp [hsent] at h

/-! ## Keys that select no operation (R64) -/

/-- Only a received byte is carried as data (R59, R60). -/
theorem data_eq_zero (i : Instr) (h : i.op.ev ≠ .rxb) : i.data = 0 := by
  cases i with
  | fsFixb b => exact absurd rfl h
  | fsSkip b => exact absurd rfl h
  | fsBodyb b => exact absurd rfl h
  | fsSent => exact absurd rfl h
  | _ => rfl

/-- The key of an instruction is in none of R64's classes. -/
theorem not_holds_encode (c : KeyReject) (i : Instr) : c.holds (encode i) = false := by
  rw [encode_eq_makeKey]
  cases c with
  | malformed =>
    by_cases h : i.op.ev = .rxb
    · simp [KeyReject.holds, h]
    · simp [KeyReject.holds, data_eq_zero i h]
  | _ => cases i <;> simp [KeyReject.holds, Instr.mode, Instr.op, Op.phase, Op.ev, Op.mode]

/-- Fields that meet none of R64's conditions are those of a phase, mode and event that R61 forms a key for. -/
theorem decode_makeKey_of_no_class (m : FrameMode) (p : Phase) (e : Ev) (d : Byte)
    (h : ∀ c : KeyReject, c.holds (makeKey m p e d) = false) : ∃ i, decode (makeKey m p e d) = .ok i := by
  have hdata : e ≠ .rxb → d = 0 := by simpa [KeyReject.holds, not_imp_comm] using h .malformed
  have hhalted : p ≠ .halted := by simpa [KeyReject.holds] using h .haltedPhase
  have hlegal : phaseLegal m p = true := by simpa [unreachablePhase_holds] using h .unreachablePhase
  have receiving (he : e = .rxb ∨ e = .rxf) :
      (p = .recv ∧ m = .fixed) ∨ (p = .hunt ∧ m = .delimited) ∨ (p = .body ∧ m = .delimited) := by
    have hrx : p ≠ .start ∧ p ≠ .decode ∧ p ≠ .pid ∧ p ≠ .map := by
      simpa [KeyReject.holds, he] using h .notReceiving
    revert hhalted hlegal hrx
    cases p <;> cases m <;> decide
  cases e with
  | txa =>
    obtain rfl := hdata nofun
    obtain ⟨rfl, rfl⟩ : m = .fixed ∧ p = .start := by simpa [KeyReject.holds] using h .notTransmitting
    exact ⟨_, decode_start_accepted⟩
  | rxb =>
    obtain ⟨rfl, rfl⟩ | ⟨rfl, rfl⟩ | ⟨rfl, rfl⟩ := receiving (.inl rfl)
    · exact ⟨_, decode_recv_byte d⟩
    · exact ⟨_, decode_hunt_byte d⟩
    · exact ⟨_, decode_body_byte d⟩
  | rxf =>
    obtain rfl := hdata nofun
    obtain ⟨rfl, rfl⟩ | ⟨rfl, rfl⟩ | ⟨rfl, rfl⟩ := receiving (.inr rfl)
    · exact ⟨_, decode_recv_failed⟩
    · exact ⟨_, decode_hunt_failed⟩
    · exact ⟨_, decode_body_failed⟩
  | none =>
    obtain rfl := hdata nofun
    have hwait := h .noEvent
    cases p with
    | start =>
      obtain rfl : m = .delimited := by
        cases m with
        | fixed => simp [KeyReject.holds] at hwait
        | delimited => rfl
      exact ⟨_, decode_start_delimited⟩
    | decode => exact ⟨_, decode_decode m⟩
    | pid => exact ⟨_, decode_pid m⟩
    | map => exact ⟨_, decode_map m⟩
    | halted => exact absurd rfl hhalted
    | _ => simp [KeyReject.holds] at hwait

theorem decode_of_no_class (k : Key) (h : ∀ c : KeyReject, c.holds k = false) : ∃ i, decode k = .ok i := by
  have hmal := h .malformed
  have hres : keyRes k = 0 := by
    simp only [KeyReject.holds, Bool.or_eq_false_iff, bne_eq_false_iff_eq] at hmal
    exact hmal.1
  rw [← makeKey_of_keyRes k hres] at h ⊢
  exact decode_makeKey_of_no_class _ _ _ _ h

/-- A key decodes exactly when none of R64's conditions holds of it. -/
theorem decode_ok_iff (k : Key) : (∃ i, decode k = .ok i) ↔ ∀ c : KeyReject, c.holds k = false := by
  refine ⟨?_, decode_of_no_class k⟩
  rintro ⟨i, hi⟩ c
  rw [← (encodeOfDecodeIsTheKey k i hi).2]
  exact not_holds_encode c i

/-- The class that names a key holds of it, where any does. -/
theorem rejectOf_holds (k : Key) (c : KeyReject) (h : c.holds k = true) : (rejectOf k).holds k = true := by
  unfold rejectOf
  split_ifs with ha hb hf hc hd
  · exact ha
  · exact hb
  · exact hf
  · exact hc
  · exact hd
  · cases c with
    | notTransmitting => exact h
    | _ => contradiction

/-- Settles O3, by `decode_ok_iff` and the class `rejectOf` names. -/
theorem keysWithoutOperationAreTheSixClasses : Obligations.KeysWithoutOperationAreTheSixClasses := by
  intro k
  have hclass : (∀ i, decode k ≠ .ok i) ↔ ∃ c : KeyReject, c.holds k = true := by
    simpa using not_congr (decode_ok_iff k)
  refine ⟨hclass, fun c hc => ?_⟩
  obtain ⟨c', hc'⟩ := hclass.1 (by simp [hc])
  rw [← rejectOf_of_decode_error k c hc]
  exact rejectOf_holds k c' hc'

/-! ## Rows that overlap (R63) -/

theorem encode_fsSkip_toNat (b : Byte) : (encode (.fsSkip b)).toNat = 0xA400 + b.toNat := by
  have hb := b.isLt
  have hor : (encode (.fsSkip b)).toNat = 2 ^ 8 * 0xA4 ||| b.toNat := by
    rw [encode, BitVec.toNat_or, dataField, BitVec.toNat_setWidth, Nat.mod_eq_of_lt (by omega)]
    rfl
  rw [hor, ← Nat.two_pow_add_eq_or_of_lt hb]

/-- FS.SKIP is selected by its own keys alone. -/
theorem decode_fsSkip_iff (k : Key) :
    (∃ b, decode k = .ok (.fsSkip b)) ↔ 0xA400 ≤ k.toNat ∧ k.toNat ≤ 0xA4FF ∧ k ≠ 0xA47B := by
  constructor
  · rintro ⟨b, hb⟩
    have hk : k.toNat = 0xA400 + b.toNat := by
      rw [← (encodeOfDecodeIsTheKey k _ hb).2, encode_fsSkip_toNat]
    refine ⟨by omega, by omega, ?_⟩
    rintro rfl
    cases (decode_hunt_byte 0x7B).symm.trans hb
  · rintro ⟨hlo, hhi, hne⟩
    have hk : encode (.fsSkip (keyData k)) = k := by
      apply BitVec.eq_of_toNat_eq
      rw [encode_fsSkip_toNat, keyData, BitVec.extractLsb'_toNat]
      omega
    refine ⟨keyData k, (congrArg decode hk).symm.trans (decodeOfEncodeIsTheInstruction _ ?_)⟩
    rw [wellFormed_iff]
    exact fun h => hne (hk.symm.trans (congrArg encode h))

/-- Rows that accept one key agree where both masks look. -/
theorem patterns_agree (r r' : Row) (k : Key) (h : r.accepts k = true) (h' : r'.accepts k = true) :
    r.pattern &&& r'.mask = r'.pattern &&& r.mask := by
  rw [← (accepts_iff r k).1 h, ← (accepts_iff r' k).1 h', BitVec.and_assoc, BitVec.and_assoc, BitVec.and_comm r.mask]

/-- The only rows of different operations whose patterns agree so are FS.SENT's and FS.SKIP's. -/
theorem overlapping_rows : ∀ r ∈ rows, ∀ r' ∈ rows, r.op ≠ r'.op → r.pattern &&& r'.mask = r'.pattern &&& r.mask →
    (r.op = .fsSent ∧ r'.op = .fsSkip) ∨ (r.op = .fsSkip ∧ r'.op = .fsSent) := by decide

/-- Settles O4: rows that overlap agree where both masks look, and only FS.SENT and FS.SKIP do. -/
theorem onlySentAndSkipOverlap : Obligations.OnlySentAndSkipOverlap := by
  refine ⟨⟨⟨.fsSent, 0xA47B, 0xFFFF⟩, by decide, ⟨.fsSkip, 0xA400, 0xFF00⟩, by decide, by decide⟩,
    decode_hunt_byte 0x7B, decode_fsSkip_iff, ?_⟩
  rintro r hr r' hr' hne ⟨k, h, h'⟩
  exact overlapping_rows r hr r' hr' hne (patterns_agree r r' k h h')

/-! ## Written keys -/

/-- Settles O5: each is the key of its phase, mode and event with the byte written out. -/
theorem specKeysDecodeAsWritten : Obligations.SpecKeysDecodeAsWritten :=
  ⟨decode_start_accepted, decode_start_delimited, decode_recv_byte 0x30, decode_recv_failed, decode_hunt_byte 0x7B,
    decode_hunt_byte 0x41, decode_hunt_failed, decode_body_byte 0x7B, decode_body_failed, decode_decode .fixed,
    decode_decode .delimited, decode_pid .fixed, decode_pid .delimited, decode_map .fixed, decode_map .delimited⟩

end Sys2Proof
end

section
/-! # Written operations and stimulus lines (30_encoding.md R57, R65 to R67) -/

namespace Sys2Proof

/-- Every operation has a row of the map (R62). -/
theorem mem_rows_op (o : Op) : o ∈ rows.map Row.op := by cases o <;> decide

/-- An instruction is its operation with what its own key carries (R60). -/
theorem assemble_encode (i : Instr) : assemble i.op (encode i) = i := by
  rw [encode_eq_makeKey]
  cases i <;> simp [assemble, Instr.op, Instr.mode, Instr.data]

end Sys2Proof

namespace Sys2Proof.Machine

/-! ## Hexadecimal literals (00_scope.md R9) -/

theorem hexDigit_inj (a b : Nat) (ha : a < 16) (hb : b < 16) (h : hexDigit a = hexDigit b) : a = b := by
  revert h
  have : ∀ a < 16, ∀ b < 16, hexDigit a = hexDigit b → a = b := by decide
  exact this a ha b hb

/-- Numbers that fit the digits are told apart by them. -/
theorem hexDigits_inj (digits a b : Nat) (ha : a < 16 ^ digits) (hb : b < 16 ^ digits)
    (h : hexDigits digits a = hexDigits digits b) : a = b := by
  induction digits generalizing a b with
  | zero => omega
  | succ digits ih =>
    obtain ⟨hrest, hlast⟩ := List.append_inj' h rfl
    have hdiv := ih (a / 16) (b / 16) (by omega) (by omega) hrest
    have hmod := hexDigit_inj (a % 16) (b % 16) (by omega) (by omega) (List.singleton_inj.1 hlast)
    omega

theorem byteText_inj (a b : Byte) (h : byteText a = byteText b) : a = b := by
  have hdigits : hexDigits 2 a.toNat = hexDigits 2 b.toNat := by simpa [byteText, hexText] using h
  exact BitVec.eq_of_toNat_eq (hexDigits_inj 2 _ _ a.isLt b.isLt hdigits)

/-! ## Written operations (R65) -/

theorem mnemonic_inj (o o' : Op) (h : Op.mnemonic o = Op.mnemonic o') : o = o' := by
  have hnodup : ((rows.map Row.op).map Op.mnemonic).Nodup := by decide
  exact List.inj_on_of_nodup_map hnodup (mem_rows_op o) (mem_rows_op o') h

theorem mnemonic_no_blank (o : Op) : ' ' ∉ Op.mnemonic o := by cases o <;> decide

/-- The mnemonic of a written operation is what stands before its first blank. -/
theorem instrText_takeWhile (i : Instr) : (instrText i).takeWhile (· ≠ ' ') = Op.mnemonic i.op := by
  have hpos : ∀ c ∈ Op.mnemonic i.op, decide (c ≠ ' ') = true := fun c hc =>
    decide_eq_true (ne_of_mem_of_not_mem hc (mnemonic_no_blank i.op))
  have hop : (Op.mnemonic i.op).takeWhile (· ≠ ' ') = Op.mnemonic i.op := List.takeWhile_eq_self_iff.2 hpos
  have hbyte (b : Byte) : (Op.mnemonic i.op ++ ' ' :: byteText b).takeWhile (· ≠ ' ') = Op.mnemonic i.op := by
    rw [List.takeWhile_append_of_pos hpos]
    exact List.append_nil _
  cases i with
  | fsFixb b => exact hbyte b
  | fsSkip b => exact hbyte b
  | fsBodyb b => exact hbyte b
  | _ => exact hop

theorem instrText_op (i j : Instr) (h : instrText i = instrText j) : i.op = j.op :=
  mnemonic_inj _ _ (by rw [← instrText_takeWhile, h, instrText_takeWhile])

/-- Settles O7: the mnemonic tells the operation and the digits tell the byte; the MODE bit stays open. -/
theorem writtenOperationsAreUnambiguous : Obligations.WrittenOperationsAreUnambiguous := by
  intro i j h
  have hj : j = assemble i.op (encode j) := by rw [instrText_op i j h, assemble_encode]
  generalize encode j = k at hj
  subst hj
  have byte (o : Op) (b b' : Byte) (ht : Op.mnemonic o ++ ' ' :: byteText b = Op.mnemonic o ++ ' ' :: byteText b') :
      b = b' :=
    byteText_inj b b' (List.cons_inj_right _ |>.1 (List.append_cancel_left ht))
  cases i with
  | fsFixb b => exact .inl (congrArg Instr.fsFixb (byte .fsFixb _ _ h))
  | fsSkip b => exact .inl (congrArg Instr.fsSkip (byte .fsSkip _ _ h))
  | fsBodyb b => exact .inl (congrArg Instr.fsBodyb (byte .fsBodyb _ _ h))
  | pidStep m => exact .inr (.inl ⟨m, _, rfl, rfl⟩)
  | mapDrv m => exact .inr (.inr ⟨m, _, rfl, rfl⟩)
  | _ => exact .inl rfl

/-! ## Stimulus lines (R67) -/

/-- Settles O8, from the requirement each expansion makes. -/
theorem macrosExpandToTheirEvents : Obligations.MacrosExpandToTheirEvents := by
  refine ⟨fun _ _ _ _ _ => rfl, fun n x es => ?_, fun body es => ?_, fun _ _ => rfl⟩
  · by_cases hx : x = 0x7B <;> simp [Line.expand, hx, eq_comm]
  · by_cases hl : body.length = 74 <;> simp [Line.expand, hl, eq_comm]

/-! ## Fault stages (R57) -/

theorem stage_code_ne_reserved (st : Stage) : st.code ≠ 3 := by cases st <;> decide

/-- Settles O40: the port shows a stage's code or nothing. -/
theorem faultStageCodes : Obligations.FaultStageCodes := by
  refine ⟨rfl, rfl, rfl, stage_code_ne_reserved, by decide, stage_ofCode_code, fun s h => ?_⟩
  obtain ⟨st, -, hst⟩ := Option.map_eq_some_iff.1 h
  exact stage_code_ne_reserved st hst

end Sys2Proof.Machine
end

section
/-! # Formed keys, RANGE lines and output events (30_encoding.md R53, R61, R66; 10_state.md R39) -/

namespace Sys2Proof.Machine

open Sys2Proof.Claims

/-! ## The operation selected (R61, R62) -/

/-- The operation of a receive phase: `byte` for a delivered byte, `failed` for a failed read. -/
def receiveOp (byte : Byte → Instr) (failed : Instr) : Option EnvEvent → Option Instr
  | some (.rxb b) => some (byte b)
  | some .rxf => some failed
  | _ => none

/-- What a receive phase selects, from the event offered. -/
theorem selectedOp_receive (s : State) :
    (s.phase = .recv → selectedOp s = receiveOp .fsFixb .fsFixf (offered s)) ∧
    (s.phase = .hunt →
      selectedOp s = receiveOp (fun b => if b = 0x7B then .fsSent else .fsSkip b) .fsHuntf (offered s)) ∧
    (s.phase = .body → selectedOp s = receiveOp .fsBodyb .fsBodyf (offered s)) := by
  unfold selectedOp
  refine ⟨fun hp => ?_, fun hp => ?_, fun hp => ?_⟩ <;> rw [hp] <;> cases offered s with
  | none => rfl
  | some e => cases e <;> rfl

/-- A receive phase selects by the keys of a delivered byte and of a failed read. -/
theorem receiveKey_decode (s : State) (byte : Byte → Instr) (failed : Instr)
    (hb : ∀ b, decode (makeKey s.params.frameMode s.phase .rxb b) = .ok (byte b))
    (hf : decode (makeKey s.params.frameMode s.phase .rxf 0) = .ok failed) :
    (receiveKey s).map decode = (receiveOp byte failed (offered s)).map Except.ok := by
  unfold receiveKey
  cases offered s with
  | none => rfl
  | some e =>
    cases e with
    | rxb b => exact congrArg some (hb b)
    | rxf => exact congrArg some hf
    | _ => rfl

/-- RECV, HUNT and BODY are legal in one mode each (10_state.md R26). -/
theorem mode_of_phaseLegal_receive (m : FrameMode) (p : Phase) (h : phaseLegal m p = true) :
    (p = .recv → m = .fixed) ∧ (p = .hunt ∨ p = .body → m = .delimited) := by
  revert h
  cases m <;> cases p <;> decide

/-- Settles O6, phase by phase. -/
theorem formedKeysSelectTheNamedOperation : Obligations.FormedKeysSelectTheNamedOperation := by
  intro s hl
  obtain ⟨hfixed, hdelimited⟩ := mode_of_phaseLegal_receive _ _ hl
  obtain ⟨hfixb, hhunt, hbody⟩ := selectedOp_receive s
  have hrecv := receiveKey_decode s
  cases hp : s.phase with
  | recv =>
    rw [hfixed hp, hp] at hrecv
    rw [hfixb hp, formKey, hp]
    exact hrecv _ _ decode_recv_byte decode_recv_failed
  | hunt =>
    rw [hdelimited (.inl hp), hp] at hrecv
    rw [hhunt hp, formKey, hp]
    exact hrecv _ _ decode_hunt_byte decode_hunt_failed
  | body =>
    rw [hdelimited (.inr hp), hp] at hrecv
    rw [hbody hp, formKey, hp]
    exact hrecv _ _ decode_body_byte decode_body_failed
  | start =>
    cases hm : s.params.frameMode with
    | fixed =>
      by_cases ho : offered s = some .txa
      · simp only [formKey, selectedOp, txReady, hp, hm, ho, beq_self_eq_true, if_true, Option.map_some,
          decode_start_accepted]
      · simp [formKey, selectedOp, txReady, hp, hm, ho]
    | delimited => simp only [formKey, selectedOp, internalKey, hp, hm, Option.map_some, decode_start_delimited]
  | decode =>
    simp only [formKey, selectedOp, internalKey, hp, Option.map_some, decode_decode]
    cases s.params.frameMode <;> rfl
  | pid => simp only [formKey, selectedOp, internalKey, hp, Option.map_some, decode_pid]
  | map => simp only [formKey, selectedOp, internalKey, hp, Option.map_some, decode_map]
  | halted => simp only [formKey, selectedOp, hp, Option.map_none]

/-! ## RANGE lines (R66) -/

/-- Settles O16: settling takes the RANGE line first. -/
theorem rangeLineTakesEffectAtOnce : Obligations.RangeLineTakesEffectAtOnce := by
  intro s n rest h
  have hsettle : settle s = settle { s with stimulus := rest, rangeIn := n } := by simp [settle, h, settleRange]
  rw [step, step, hsettle]

/-! ## Output events (R39, R53) -/

/-- What an operation emits is nothing, the trigger, one report, or two drives with clamped duties (R93). -/
theorem opEvents_shape (i : Instr) (s : State) :
    opEvents i s = [] ∨ opEvents i s = [.tx 0x30] ∨ (∃ st, st ≠ Stage.frame ∧ opEvents i s = [.fault st]) ∨
      ∃ fa da fb db, da.toNat ≤ 100 ∧ db.toNat ≤ 100 ∧ opEvents i s = [.drive .a fa da, .drive .b fb db] := by
  cases i with
  | fsTrig => exact .inr (.inl rfl)
  | fsFixf => exact .inr (.inr (.inl ⟨.read, nofun, rfl⟩))
  | fsHuntf => exact .inr (.inr (.inl ⟨.read, nofun, rfl⟩))
  | fsBodyf => exact .inr (.inr (.inl ⟨.read, nofun, rfl⟩))
  | decStr =>
    by_cases h : Config.structDecode (frameBody s) = none
    · exact .inr (.inr (.inl ⟨.decode, nofun, if_pos h⟩))
    · exact .inl (if_neg h)
  | mapDrv m =>
    by_cases h : s.flag0 = true ∨ s.flag1 = true
    · exact .inr (.inr (.inr ⟨_, _, _, _, dutyOf_le _, dutyOf_le _, if_pos h⟩))
    · exact .inl (if_neg h)
  | _ => exact .inl rfl

/-- Settles O36: an operation emits `opEvents`, whose shapes `opEvents_shape` lists. -/
theorem eventListsHaveTheSpecsShape : Obligations.EventListsHaveTheSpecsShape :=
  fun i s t hx => ⟨opEvents i s, exec_emits i s t hx, opEvents_shape i s⟩

/-- Only FS.TRIG transmits, and only the trigger byte (R71). -/
theorem tx_mem_opEvents (i : Instr) (s : State) (b : Byte) (h : .tx b ∈ opEvents i s) : i = .fsTrig ∧ b = 0x30 := by
  cases i with
  | fsTrig => simpa [opEvents] using h
  | decStr => by_cases hd : Config.structDecode (frameBody s) = none <;> simp [opEvents, hd] at h
  | mapDrv m => by_cases hf : s.flag0 = true ∨ s.flag1 = true <;> simp [opEvents, hf] at h
  | _ => simp [opEvents] at h

/-- In START of FIXED mode a key is formed exactly in a transmit transfer (R35, R61). -/
theorem formKey_start_fixed (s : State) (hp : s.phase = .start) (hm : s.params.frameMode = .fixed) :
    formKey s = if txTransfer s then some (makeKey .fixed .start .txa 0) else none := by
  simp [formKey, txTransfer, txValid, hp, hm]

/-- Settles O45: only FS.TRIG transmits, and its key is formed only in a transmit transfer. -/
theorem onlyTheTriggerIsTransmitted : Obligations.OnlyTheTriggerIsTransmitted := by
  constructor
  · intro s hd hm hp ho
    have htx : txTransfer s = true := by simp [txTransfer, txValid, txReady, hm, hp, ho]
    have hk : formKey s = some (makeKey .fixed .start .txa 0) := by rw [formKey_start_fixed s hp hm, if_pos htx]
    have hr : rst s = false := by simp [rst, ho]
    exact ⟨_, step_of_key s _ _ hr hd hk decode_start_accepted, by simp⟩
  · intro s t b hst hb
    obtain ⟨-, rfl⟩ | ⟨-, -, -, -, rfl⟩ | ⟨-, -, -, k, i, hk, hi, hx⟩ := step_cases s t hst
    · simp at hb
    · simp at hb
    · have hev : t.stepEvents = opEvents i (takeEvent (settle s)) := by simpa using (exec_emits i _ t hx).1
      obtain ⟨rfl, rfl⟩ := tx_mem_opEvents i _ b (hev ▸ hb)
      obtain ⟨hp, hm⟩ := selected_phase_mode s k _ hk hi
      have hmode := hm _ rfl
      refine ⟨rfl, hmode, hp, ?_⟩
      by_contra htx
      simp [formKey_start_fixed s hp hmode, htx] at hk

end Sys2Proof.Machine
end

section
/-! # What each operation of the synchronizer does (41_frame_sync.md R71 to R79) -/

namespace Sys2Proof

/-- The operations of 41_frame_sync.md. -/
def Op.isSync : Op → Bool
  | .decRaw => false
  | .decStr => false
  | .pidStep => false
  | .mapDrv => false
  | _ => true

end Sys2Proof

namespace Sys2Proof.Machine

open Sys2Proof.Claims

/-- The synchronizer writes none of the later stages' elements and no input (10_state.md R15). -/
theorem exec_sync_frame (i : Instr) (s t : State) (hi : i.op.isSync = true) (hx : exec i s = .next t) :
    SameControl s t ∧ SameLatches s t ∧ SameMotors s t ∧ SameEnvironment s t := by
  have hraw : i ≠ .decRaw := by rintro rfl; cases hi
  have hstr : i ≠ .decStr := by rintro rfl; cases hi
  have hpid (m : FrameMode) : i ≠ .pidStep m := by rintro rfl; cases hi
  have hmap (m : FrameMode) : i ≠ .mapDrv m := by rintro rfl; cases hi
  obtain ⟨hcontrol, hturn⟩ := exec_control i s t hx hpid
  obtain ⟨herr, hf0, hf1⟩ := exec_decodeLatches i s t hx hraw hstr
  exact ⟨hcontrol, ⟨herr, hf0, hf1, hturn⟩, exec_motors i s t hx hmap, exec_environment i s t hx⟩

/-- A write to a buffer of canonical form stores its byte and no other (20_memory.md R41). -/
theorem storesByte_of_write {s t : State} {k : Nat} {b : Byte} (hw : Memory.wf s.buf = true)
    (ht : t.buf = Memory.write s.buf k b) : StoresByte s t k b := by
  unfold StoresByte
  rw [ht]
  exact ⟨read_write_same s.buf k b hw, fun j hj => read_write_other s.buf k j b hw hj⟩

/-- Settles O17, by R71's equation. -/
theorem fsTrigTransmitsTheTrigger : Obligations.FsTrigTransmitsTheTrigger := by
  intro s
  have hx := exec_fsTrig s
  obtain ⟨hcontrol, hlatches, hmotors, henv⟩ := exec_sync_frame _ s _ rfl hx
  exact ⟨_, hx, exec_emits _ s _ hx, rfl, rfl, rfl, rfl, hcontrol, hlatches, hmotors, fun _ => rfl, henv⟩

/-- Settles O19: both operations are `faultAndAbandon`. -/
theorem readFailureAbandonsAtOnce : Obligations.ReadFailureAbandonsAtOnce := by
  rintro i s hi
  obtain ⟨hx, hsync⟩ : exec i s = .next (faultAndAbandon .read s) ∧ i.op.isSync = true := by
    obtain rfl | rfl := hi
    · exact ⟨exec_fsFixf s, rfl⟩
    · exact ⟨exec_fsHuntf s, rfl⟩
  obtain ⟨hcontrol, hlatches, hmotors, henv⟩ := exec_sync_frame i s _ hsync hx
  exact ⟨_, hx, ⟨rfl, rfl⟩, ⟨rfl, rfl, rfl⟩, standbyAfterFault_eq s, hcontrol, hlatches, hmotors, fun _ => rfl, henv⟩

/-- Settles O20: FS.HUNT and FS.SKIP are one write of the phase. -/
theorem huntSkipAndSentMoveThePhase : Obligations.HuntSkipAndSentMoveThePhase := by
  constructor
  · intro i s hi
    obtain ⟨hx, hsync, hnone⟩ : exec i s = .next { s with phase := .hunt } ∧ i.op.isSync = true ∧ opEvents i s = [] := by
      obtain rfl | ⟨b, rfl⟩ := hi
      · exact ⟨exec_fsHunt s, rfl, rfl⟩
      · exact ⟨exec_fsSkip b s, rfl, rfl⟩
    obtain ⟨hcontrol, hlatches, hmotors, henv⟩ := exec_sync_frame i s _ hsync hx
    exact ⟨_, hx, rfl, rfl, rfl, hnone ▸ exec_emits i s _ hx, rfl, hcontrol, hlatches, hmotors, fun _ => rfl, henv⟩
  · intro s
    have hx := exec_fsSent s
    obtain ⟨hcontrol, hlatches, hmotors, henv⟩ := exec_sync_frame _ s _ rfl hx
    exact ⟨_, hx, rfl, rfl, rfl, exec_emits _ s _ hx, rfl, hcontrol, hlatches, hmotors, fun _ => rfl, henv⟩

/-- Settles O18, on both sides of the fifth byte. -/
theorem fsFixbStoresTheFrameByte : Obligations.FsFixbStoresTheFrameByte := by
  intro b s
  refine ⟨fun hw hc => ?_, exec_fsFixb_no_such_byte b s⟩
  have hx := exec_fsFixb b s hc
  obtain ⟨hcontrol, hlatches, hmotors, henv⟩ := exec_sync_frame _ s _ rfl hx
  have h4 : s.cnt = 4 ↔ s.cnt.toNat = 4 := BitVec.toNat_inj.symm
  refine ⟨_, hx, storesByte_of_write hw ?_, fun h => ?_, fun h => ?_, exec_emits _ s _ hx,
    exec_mark _ s _ hx (.inr (.inr (.inl ⟨b, rfl⟩))), exec_standby _ s _ hx nofun, hcontrol, hlatches, hmotors, henv⟩
  · split <;> rfl
  · rw [if_pos (h4.1 h)]
    exact ⟨rfl, rfl⟩
  · rw [if_neg (mt h4.2 h)]
    exact ⟨count_succ_toNat s.cnt (by omega), rfl⟩

/-- Settles O21, below byte 73 and at it with either mark. -/
theorem fsBodybStoresTheBodyByte : Obligations.FsBodybStoresTheBodyByte := by
  intro b s
  refine ⟨fun hw hc => ?_, exec_fsBodyb_no_such_byte b s⟩
  have hx := exec_fsBodyb b s hc
  obtain ⟨hcontrol, hlatches, hmotors, henv⟩ := exec_sync_frame _ s _ rfl hx
  refine ⟨_, hx, storesByte_of_write hw ?_, fun hlt => ?_, fun hlast he => ?_, fun hlast he => ?_,
    exec_emits _ s _ hx, exec_standby _ s _ hx nofun, hcontrol, hlatches, hmotors, henv⟩
  · split
    · rfl
    · split <;> rfl
  · rw [if_pos hlt]
    exact ⟨count_succ_toNat s.cnt (by omega), rfl, rfl⟩
  · rw [if_neg (by omega), if_pos he]
    exact ⟨rfl, rfl, he⟩
  · rw [if_neg (by omega), if_neg (by simp [he])]
    exact ⟨rfl, rfl, rfl⟩

/-- Settles O22, below byte 73 and at it. -/
theorem fsBodyfSubstitutesAZero : Obligations.FsBodyfSubstitutesAZero := by
  intro s
  refine ⟨fun hw hc => ?_, exec_fsBodyf_no_such_byte s⟩
  have hx := exec_fsBodyf s hc
  obtain ⟨hcontrol, hlatches, hmotors, henv⟩ := exec_sync_frame _ s _ rfl hx
  have hstandby := exec_standby _ s _ hx nofun
  refine ⟨_, hx, storesByte_of_write hw ?_, fun hlt => ?_, fun hlast => ?_, exec_emits _ s _ hx,
    hstandby.trans (standbyAfterFault_eq s), hcontrol, hlatches, hmotors, henv⟩
  · split <;> rfl
  · rw [if_pos hlt]
    exact ⟨count_succ_toNat s.cnt (by omega), rfl, rfl⟩
  · rw [if_neg (by omega)]
    exact ⟨rfl, rfl, rfl⟩

end Sys2Proof.Machine
end

section
/-! # Runs of transfers and of internal steps (10_state.md R34, R35; 30_encoding.md R61)

A step of a run is one operation: the selected one, on the state with its event taken. -/

namespace Sys2Proof.Machine

open Sys2Proof.Claims

/-! ## Runs -/

section
variable {M : Host.Core} {s t : M.State}

theorem machine_run_succ (n : Nat) (h : M.step s = .next t) : M.run (n + 1) s = M.run n t := by
  rw [Host.Core.run, h]

/-- A run goes on from where its first part ends. -/
theorem machine_run_add (m n : Nat) (h : M.run m s = .next t) : M.run (m + n) s = M.run n t := by
  induction m generalizing s with
  | zero => cases h; rw [Nat.zero_add]
  | succ m ih =>
    rw [Nat.succ_add]
    rw [Host.Core.run] at h ⊢
    cases hs : M.step s with
    | next u => rw [hs] at h; exact ih h
    | fault r => rw [hs] at h; cases h
    | refused r => rw [hs] at h; cases h

end

theorem run_succ_of_step (n : Nat) {s t : State} (h : step s = .next t) :
    Host.Core.run core (n + 1) s = Host.Core.run core n t :=
  machine_run_succ (M := core) n h

theorem run_add (m n : Nat) {s t : State} (h : Host.Core.run core m s = .next t) :
    Host.Core.run core (m + n) s = Host.Core.run core n t :=
  machine_run_add (M := core) m n h

theorem run_one {s t : State} (h : step s = .next t) : Host.Core.run core 1 s = .next t := run_succ_of_step 0 h

/-- A run of one or more steps does not see the strobes of the step before it (10_state.md R37, R38). -/
theorem run_stepEvents (n : Nat) (s : State) (out : List OutEvent) :
    Host.Core.run core (n + 1) { s with stepEvents := out } = Host.Core.run core (n + 1) s := rfl

/-! ## Elements that stay through a run (10_state.md R15) -/

section
variable {s u t : State}

theorem sameControl_trans : SameControl s u → SameControl u t → SameControl s t :=
  fun ⟨hi, hl⟩ ⟨hi', hl'⟩ => ⟨hi'.trans hi, hl'.trans hl⟩

theorem sameLatches_trans : SameLatches s u → SameLatches u t → SameLatches s t :=
  fun ⟨he, h0, h1, ht⟩ ⟨he', h0', h1', ht'⟩ => ⟨he'.trans he, h0'.trans h0, h1'.trans h1, ht'.trans ht⟩

theorem sameMotors_trans : SameMotors s u → SameMotors u t → SameMotors s t :=
  fun ⟨hfa, hda, hfb, hdb⟩ ⟨hfa', hda', hfb', hdb'⟩ =>
    ⟨hfa'.trans hfa, hda'.trans hda, hfb'.trans hfb, hdb'.trans hdb⟩

end

/-! ## One operation -/

/-- The state whose step has taken an event and left `rest`. -/
def State.taking (s : State) (rest : List EnvEvent) : State := { s with stimulus := rest, stepEvents := [] }

/-- The state whose step takes no channel event: RANGE lines are in effect and an idle step is over (log 5). -/
def State.passing (s : State) : State :=
  { s with stimulus := afterIdle (pending s), rangeIn := rangeInput s, stepEvents := [] }

/-- A selected operation is the one the formed key decodes to (30_encoding.md R61, R62). -/
theorem formKey_of_selectedOp {s : State} {i : Instr} (hl : phaseLegal s.params.frameMode s.phase = true)
    (hi : selectedOp s = some i) : ∃ k, formKey s = some k ∧ decode k = .ok i := by
  have h := formedKeysSelectTheNamedOperation s hl
  rw [hi] at h
  exact Option.map_eq_some_iff.1 h

/-- A channel event at the head of the stimulus stands behind no RANGE line. -/
theorem settleRange_channelEvent {e : EnvEvent} (he : isChannelEvent e = true) (rest : List EnvEvent) (r : Half) :
    settleRange (e :: rest) r = (e :: rest, r) := by
  cases e with
  | range n => cases he
  | _ => rfl

theorem offered_channelEvent {s : State} {e : EnvEvent} {rest : List EnvEvent} (hs : s.stimulus = e :: rest)
    (he : isChannelEvent e = true) : offered s = some e := by
  rw [offered, hs, settleRange_channelEvent he, List.head?_cons]

theorem settle_channelEvent {s : State} {e : EnvEvent} {rest : List EnvEvent} (hs : s.stimulus = e :: rest)
    (he : isChannelEvent e = true) : settle s = { s with stepEvents := [] } := by
  rw [settle, hs, settleRange_channelEvent he, ← hs]

/-- A step with a transfer runs the selected operation on the state with the event taken. -/
theorem step_transfer {s : State} {e : EnvEvent} {rest : List EnvEvent} {i : Instr} (hs : s.stimulus = e :: rest)
    (he : isChannelEvent e = true) (ht : takes s e = true) (hd : s.resetDone = true)
    (hl : phaseLegal s.params.frameMode s.phase = true) (hi : selectedOp s = some i) :
    step s = exec i (s.taking rest) := by
  have ho := offered_channelEvent hs he
  have hr : rst s = false := by rw [rst_eq_false_iff, ho]; rintro ⟨⟩; cases he
  obtain ⟨k, hk, hdec⟩ := formKey_of_selectedOp hl hi
  rw [step_of_key s k i hr hd hk hdec,
    takeEvent_of_takes (settle s) e (by rw [← offered_settled, offered_settle, ho]) (by simpa using ht),
    settle_channelEvent hs he, hs]
  rfl

/-- A step without a transfer runs the selected operation. -/
theorem step_internal {s : State} {i : Instr} (ho : offered s ≠ some .reset) (hd : s.resetDone = true)
    (hl : phaseLegal s.params.frameMode s.phase = true) (hrx : rxReady s = false) (htx : txValid s = false)
    (hi : selectedOp s = some i) : step s = exec i s.passing := by
  obtain ⟨k, hk, hdec⟩ := formKey_of_selectedOp hl hi
  rw [step_of_key s k i ((rst_eq_false_iff s).2 ho) hd hk hdec, takeEvent_without_transfer (settle s) hrx htx]
  rfl

/-- With a channel event at the head of the stimulus a step without a transfer leaves the stimulus. -/
theorem passing_channelEvent {s : State} {e : EnvEvent} {rest : List EnvEvent} (hs : s.stimulus = e :: rest)
    (he : isChannelEvent e = true) : s.passing = s.taking (e :: rest) := by
  have hidle : afterIdle (e :: rest) = e :: rest := if_neg (by rintro ⟨⟩; cases he)
  rw [State.passing, pending, rangeInput, hs, settleRange_channelEvent he, hidle]
  rfl

/-! ## Stored bytes -/

/-- The buffer after `bs` are stored from index `k` on (20_memory.md R42). -/
def storeBytes : Memory → Nat → List Byte → Memory
  | m, _, [] => m
  | m, k, b :: bs => storeBytes (Memory.write m k b) (k + 1) bs

theorem read_storeBytes_before (m : Memory) (k j : Nat) (bs : List Byte) (hm : Memory.wf m = true)
    (hlen : k + bs.length ≤ 74) (hj : j < k) : Memory.read (storeBytes m k bs) j = Memory.read m j := by
  induction bs generalizing m k with
  | nil => rfl
  | cons b bs ih =>
    rw [List.length_cons] at hlen
    rw [storeBytes, ih _ _ (write_wf m k b hm (by omega)) (by omega) (by omega),
      read_write_other m k j b hm (by omega)]

/-- The bytes stand in the buffer in arrival order. -/
theorem read_storeBytes (m : Memory) (k j : Nat) (bs : List Byte) (hm : Memory.wf m = true)
    (hlen : k + bs.length ≤ 74) (hj : j < bs.length) : Memory.read (storeBytes m k bs) (k + j) = bs[j] := by
  induction bs generalizing m k j with
  | nil => cases hj
  | cons b bs ih =>
    rw [List.length_cons] at hlen hj
    have hw := write_wf m k b hm (by omega)
    cases j with
    | zero =>
      rw [storeBytes, read_storeBytes_before _ _ _ bs hw (by omega) (by omega)]
      exact read_write_same m k b hm
    | succ j =>
      rw [storeBytes, ← Nat.add_assoc, Nat.add_right_comm, ih _ _ j hw (by omega) (by omega)]
      rfl

end Sys2Proof.Machine
end

section
/-! # A DELIMITED stream: the hunt and the body (41_frame_sync.md R74 to R79) -/

namespace Sys2Proof.Machine

open Sys2Proof.Claims

/-! ## The hunt -/

/-- The state after FS.SENT has taken its event (41_frame_sync.md R75). -/
def State.atBody (s : State) (rest : List EnvEvent) : State :=
  { s.taking rest with cnt := 0, frameErr := false, phase := .body }

/-- The operation a receive selects in the body (30_encoding.md R62). -/
def bodyOp : EnvEvent → Instr
  | .rxb b => .fsBodyb b
  | _ => .fsBodyf

section
variable {s : State} (hm : s.params.frameMode = .delimited) (hd : s.resetDone = true)
include hm hd

theorem step_start_delimited (hp : s.phase = .start) (ho : offered s ≠ some .reset) :
    step s = .next { s.passing with phase := .hunt } := by
  have hi : selectedOp s = some .fsHunt := by simp only [selectedOp, hp, hm]
  rw [step_internal ho hd (by rw [hp]; exact phaseLegal_start _) (by simp [rxReady, hp]) (by simp [txValid, hm]) hi,
    exec_fsHunt]

theorem step_hunt_byte {b : Byte} {rest : List EnvEvent} (hp : s.phase = .hunt) (hs : s.stimulus = .rxb b :: rest) :
    step s = exec (if b = 0x7B then .fsSent else .fsSkip b) (s.taking rest) := by
  have hi : selectedOp s = some (if b = 0x7B then .fsSent else .fsSkip b) := by
    simp only [selectedOp, hp, offered_channelEvent hs rfl]
  exact step_transfer hs rfl (by simp [takes, rxReady, hp]) hd (by rw [hm, hp]; rfl) hi

theorem step_sentinel {rest : List EnvEvent} (hp : s.phase = .hunt) (hs : s.stimulus = .rxb 0x7B :: rest) :
    step s = .next (s.atBody rest) := by
  rw [step_hunt_byte hm hd hp hs, if_pos rfl, exec_fsSent]
  rfl

/-- A byte that is not the sentinel is dropped and leaves nothing behind (R76). -/
theorem step_garbage {b : Byte} {rest : List EnvEvent} (hp : s.phase = .hunt) (hb : b ≠ 0x7B)
    (hs : s.stimulus = .rxb b :: rest) : step s = .next (s.taking rest) := by
  rw [step_hunt_byte hm hd hp hs, if_neg hb, exec_fsSkip, ← hp]
  rfl

theorem step_body {e : EnvEvent} {rest : List EnvEvent} (hp : s.phase = .body) (he : isReceiveEvent e = true)
    (hs : s.stimulus = e :: rest) : step s = exec (bodyOp e) (s.taking rest) := by
  have hl : phaseLegal s.params.frameMode s.phase = true := by rw [hm, hp]; rfl
  have hrx : rxReady s = true := by rw [rxReady, hp]
  have hi (hc : isChannelEvent e = true) : selectedOp s = receiveOp .fsBodyb .fsBodyf (some e) := by
    rw [(selectedOp_receive s).2.2 hp, offered_channelEvent hs hc]
  cases e with
  | rxb b => exact step_transfer hs rfl hrx hd hl (hi rfl)
  | rxf => exact step_transfer hs rfl hrx hd hl (hi rfl)
  | _ => cases he

end

/-- Garbage in the hunt is dropped: a run over it and on is the run without it. -/
theorem run_garbage (garbage : List Byte) (rest : List EnvEvent) (n : Nat) (s : State)
    (hm : s.params.frameMode = .delimited) (hp : s.phase = .hunt) (hd : s.resetDone = true) (hg : 0x7B ∉ garbage) :
    Host.Core.run core (garbage.length + (n + 1)) { s with stimulus := garbage.map .rxb ++ rest } =
      Host.Core.run core (n + 1) { s with stimulus := rest } := by
  induction garbage generalizing s with
  | nil => rw [List.length_nil, Nat.zero_add]; rfl
  | cons b garbage ih =>
    rw [List.mem_cons, not_or] at hg
    obtain ⟨hb, hg⟩ := hg
    have hstep := step_garbage (s := { s with stimulus := (b :: garbage).map .rxb ++ rest }) hm hd hp (Ne.symm hb) rfl
    rw [List.length_cons, Nat.succ_add, run_succ_of_step _ hstep]
    exact (ih { s with stepEvents := [] } hm hp hd hg).trans (run_stepEvents n { s with stimulus := rest } [])

/-- Settles O55, by `run_garbage`. -/
theorem garbageInTheHuntIsInvisible : Obligations.GarbageInTheHuntIsInvisible :=
  fun s garbage rest n hm hp hd hg => run_garbage garbage rest n s hm hp hd hg

/-- After any garbage the sentinel starts the body (R75). -/
theorem run_hunt (garbage : List Byte) (rest : List EnvEvent) (s : State) (hm : s.params.frameMode = .delimited)
    (hp : s.phase = .hunt) (hd : s.resetDone = true) (hg : 0x7B ∉ garbage)
    (hs : s.stimulus = garbage.map .rxb ++ .rxb 0x7B :: rest) :
    Host.Core.run core (garbage.length + 1) s = .next (s.atBody rest) := by
  have hskip := run_garbage garbage (.rxb 0x7B :: rest) 0 s hm hp hd hg
  rw [← hs] at hskip
  exact hskip.trans (run_one (step_sentinel (s := { s with stimulus := .rxb 0x7B :: rest }) hm hd hp rfl))

/-! ## The body -/

/-- The byte a receive stores in the body: a zero for a failed one (R79). -/
def bodyByte : EnvEvent → Byte
  | .rxb b => b
  | _ => 0

/-- What the receives `evs` of a body, all consumed, have done beside the counter, the mark and the phase: their bytes
are stored, each failed one is reported (R78, R79, 60_exceptions.md R102), and nothing else is written. -/
structure BodyReceived (evs rest : List EnvEvent) (s t : State) : Prop where
  buf : t.buf = storeBytes s.buf s.cnt.toNat (evs.map bodyByte)
  trace : t.trace = s.trace ++ List.replicate (evs.count .rxf) (.fault .read)
  standby : t.standby = if .rxf ∈ evs then standbyAfterFault s else s.standby
  control : SameControl s t
  latches : SameLatches s t
  motors : SameMotors s t
  params : t.params = s.params
  stimulus : t.stimulus = rest
  resetDone : t.resetDone = s.resetDone

/-- The mark after the receives `evs` (10_state.md R23). -/
def markAfter (evs : List EnvEvent) (s : State) : Bool := s.frameErr || decide (.rxf ∈ evs)

/-- How a body ends: in DECODE, or abandoned if it is marked (R78, R79, 60_exceptions.md R104). -/
def BodyEnded (mark : Bool) (t : State) : Prop :=
  t.phase = (if mark then .start else .decode) ∧ t.cnt = 0 ∧ t.frameErr = false

/-- The receives of a body add up. -/
theorem BodyReceived.cons {e : EnvEvent} {evs rest rest' : List EnvEvent} {s u t : State}
    (h : BodyReceived [e] rest' s u) (h' : BodyReceived evs rest u t) (hcnt : u.cnt.toNat = s.cnt.toNat + 1) :
    BodyReceived (e :: evs) rest s t where
  buf := by rw [h'.buf, h.buf, hcnt]; rfl
  trace := by
    rw [h'.trace, h.trace, List.append_assoc, List.replicate_append_replicate, ← List.count_append]
    rfl
  standby := by
    have hagain : standbyAfterFault u = standbyAfterFault s := by
      rw [standbyAfterFault_eq, h.params, h.standby, standbyAfterFault_eq]
      split <;> simp
    rw [h'.standby, hagain, h.standby]
    by_cases hfirst : .rxf = e <;> by_cases hrest : .rxf ∈ evs <;> simp [hfirst, hrest]
  control := sameControl_trans h.control h'.control
  latches := sameLatches_trans h.latches h'.latches
  motors := sameMotors_trans h.motors h'.motors
  params := h'.params.trans h.params
  stimulus := h'.stimulus
  resetDone := h'.resetDone.trans h.resetDone

/-- The two operations of the body store the byte of their event, report a failed one and write no more. -/
theorem exec_bodyOp_received {e : EnvEvent} {rest : List EnvEvent} {s t : State} (he : isReceiveEvent e = true)
    (hx : exec (bodyOp e) (s.taking rest) = .next t) : BodyReceived [e] rest s t := by
  obtain ⟨hsync, hbuf, hevents, hstage⟩ : (bodyOp e).op.isSync = true ∧
      t.buf = Memory.write s.buf s.cnt.toNat (bodyByte e) ∧
      opEvents (bodyOp e) (s.taking rest) = List.replicate ([e].count .rxf) (.fault .read) ∧
      reportedStage (bodyOp e) (s.taking rest) = if .rxf ∈ [e] then some .read else none := by
    cases e with
    | rxb b => refine ⟨rfl, ?_, rfl, rfl⟩; cases exec_effect _ _ _ hx <;> rfl
    | rxf => refine ⟨rfl, ?_, rfl, rfl⟩; cases exec_effect _ _ _ hx <;> rfl
    | _ => cases he
  obtain ⟨hcontrol, hlatches, hmotors, hparams, hstim, -, hdone⟩ := exec_sync_frame _ _ t hsync hx
  have hmap (m : FrameMode) : bodyOp e ≠ .mapDrv m := by intro h; rw [h] at hsync; cases hsync
  exact {
    buf := hbuf
    trace := hevents ▸ (exec_emits _ _ t hx).2
    standby := by
      rw [exec_standby _ _ t hx hmap, hstage]
      split <;> rfl
    control := hcontrol, latches := hlatches, motors := hmotors
    params := hparams, stimulus := hstim, resetDone := hdone }

/-- A receive before the last of a body. -/
theorem exec_bodyOp_more {e : EnvEvent} {s t : State} (he : isReceiveEvent e = true) (hc : s.cnt.toNat < 73)
    (hx : exec (bodyOp e) s = .next t) :
    t.phase = .body ∧ t.cnt.toNat = s.cnt.toNat + 1 ∧ t.frameErr = markAfter [e] s := by
  have hcnt := count_succ_toNat s.cnt (by omega)
  cases e with
  | rxb b =>
    cases exec_effect _ s t hx with
    | fsBodybMore => exact ⟨rfl, hcnt, by simp [markAfter]⟩
    | fsBodybLast _ _ h => omega
    | fsBodybDamaged _ _ h => omega
  | rxf =>
    cases exec_effect _ s t hx with
    | fsBodyfMore => exact ⟨rfl, hcnt, by simp [markAfter]⟩
    | fsBodyfLast _ h => omega
  | _ => cases he

/-- The last receive of a body. -/
theorem exec_bodyOp_last {e : EnvEvent} {s t : State} (he : isReceiveEvent e = true) (hc : s.cnt.toNat = 73)
    (hx : exec (bodyOp e) s = .next t) : BodyEnded (markAfter [e] s) t := by
  cases e with
  | rxb b =>
    cases exec_effect _ s t hx with
    | fsBodybMore _ _ h => omega
    | fsBodybLast _ _ _ hmark => exact ⟨by simp [markAfter, hmark], rfl, hmark⟩
    | fsBodybDamaged _ _ _ hmark => exact ⟨by simp [markAfter, hmark], rfl, rfl⟩
  | rxf =>
    cases exec_effect _ s t hx with
    | fsBodyfMore _ h => omega
    | fsBodyfLast => exact ⟨by simp [markAfter], rfl, rfl⟩
  | _ => cases he

/-- A body is consumed to its 74th byte, whatever fails in it. -/
theorem run_body (evs rest : List EnvEvent) (s : State) (hm : s.params.frameMode = .delimited)
    (hd : s.resetDone = true) (hp : s.phase = .body) (hrecv : ∀ e ∈ evs, isReceiveEvent e = true)
    (hs : s.stimulus = evs ++ rest) (hlen : s.cnt.toNat + evs.length = 74) (hc : s.cnt.toNat < 74) :
    ∃ t, Host.Core.run core evs.length s = .next t ∧ BodyReceived evs rest s t ∧ BodyEnded (markAfter evs s) t := by
  induction evs generalizing s with
  | nil => rw [List.length_nil] at hlen; omega
  | cons e evs ih =>
    obtain ⟨he, hrecv⟩ := List.forall_mem_cons.1 hrecv
    rw [List.length_cons] at hlen
    obtain ⟨u, hx⟩ := exec_answers_next (bodyOp e) (s.taking (evs ++ rest)) hc
    have hstep := (step_body hm hd hp he hs).trans hx
    have hfirst := exec_bodyOp_received he hx
    cases evs with
    | nil => exact ⟨u, run_one hstep, hfirst, exec_bodyOp_last (s := s.taking _) he (Nat.succ.inj hlen) hx⟩
    | cons e' evs =>
      rw [List.length_cons] at hlen
      obtain ⟨hphase, hcnt, hmark⟩ := exec_bodyOp_more (s := s.taking _) he (by simp only [State.taking]; omega) hx
      replace hcnt : u.cnt.toNat = s.cnt.toNat + 1 := hcnt
      obtain ⟨t, hrun, hrest, hend⟩ := ih u (by rw [hfirst.params, hm]) (by rw [hfirst.resetDone, hd]) hphase hrecv
        hfirst.stimulus (by rw [hcnt, List.length_cons]; omega) (by omega)
      have hmarks : markAfter (e' :: evs) u = markAfter (e :: e' :: evs) s := by
        simp [markAfter, hmark, State.taking, Bool.or_assoc, eq_comm]
      exact ⟨t, (run_succ_of_step _ hstep).trans hrun, hfirst.cons hrest hcnt, hmarks ▸ hend⟩

/-- Settles O56, by `run_body` from the start of the body. -/
theorem damagedBodyIsConsumedAndAbandoned : Obligations.DamagedBodyIsConsumedAndAbandoned := by
  intro s evs rest hm hp hcnt hmark hd hlen hrecv hfailed hs
  obtain ⟨t, hrun, h, hphase, hend⟩ := run_body evs rest s hm hd hp hrecv hs (by simp [hcnt, hlen]) (by simp [hcnt])
  have hdamaged : markAfter evs s = true := by simp [markAfter, hfailed]
  rw [hlen] at hrun
  rw [hdamaged, if_pos rfl] at hphase
  refine ⟨t, hrun, ⟨hphase, hend⟩, h.stimulus, h.trace, ?_, h.control, h.latches, h.motors⟩
  exact (h.standby.trans (if_pos hfailed)).trans (standbyAfterFault_eq s)

/-! ## A whole frame -/

/-- A body without failed bytes ends in DECODE with its bytes stored. -/
theorem run_good_body (bytes : List Byte) (rest : List EnvEvent) (s : State) (hm : s.params.frameMode = .delimited)
    (hd : s.resetDone = true) (hp : s.phase = .body) (hmark : s.frameErr = false) (hcnt : s.cnt = 0)
    (hlen : bytes.length = 74) (hs : s.stimulus = bytes.map .rxb ++ rest) :
    ∃ t, Host.Core.run core 74 s = .next t ∧ BodyEnded false t ∧ t.buf = storeBytes s.buf 0 bytes ∧
      t.stimulus = rest ∧ t.trace = s.trace ∧ t.standby = s.standby ∧ SameControl s t ∧ SameLatches s t ∧
      SameMotors s t := by
  obtain ⟨t, hrun, h, hend⟩ := run_body (bytes.map .rxb) rest s hm hd hp (by simp [isReceiveEvent]) hs
    (by simp [hcnt, hlen]) (by simp [hcnt])
  have hgood : EnvEvent.rxf ∉ bytes.map .rxb := by simp
  have hbytes : (bytes.map .rxb).map bodyByte = bytes := by rw [List.map_map]; exact List.map_id bytes
  rw [List.length_map, hlen] at hrun
  refine ⟨t, hrun, ?_, ?_, h.stimulus, ?_, h.standby.trans (if_neg hgood), h.control, h.latches, h.motors⟩
  · simpa [markAfter, hmark] using hend
  · rw [h.buf, hcnt, hbytes]
    rfl
  · rw [h.trace, List.count_eq_zero.2 hgood]
    exact List.append_nil _

/-- Settles O54: FS.HUNT, the garbage and the sentinel by `run_hunt`, then `run_good_body`. -/
theorem delimitedFrameIsFoundAfterAnyGarbage : Obligations.DelimitedFrameIsFoundAfterAnyGarbage := by
  intro s garbage body rest hm hp hd hw hg hs
  obtain ⟨b, more, hhead⟩ : ∃ b more, s.stimulus = .rxb b :: more := by
    cases garbage with
    | nil => exact ⟨_, _, hs⟩
    | cons b garbage => exact ⟨b, _, hs⟩
  have hstart := step_start_delimited hm hd hp (by rw [offered_channelEvent hhead rfl]; nofun)
  rw [passing_channelEvent hhead rfl, ← hhead] at hstart
  have hhunt := run_hunt garbage ((List.ofFn body).map EnvEvent.rxb ++ rest)
    { s.taking s.stimulus with phase := .hunt } hm rfl hd hg hs
  obtain ⟨t, hrun, ⟨hphase, hcnt, hmark⟩, hbuf, hstim, htrace, hstandby, hcontrol, hlatches, hmotors⟩ :=
    run_good_body (List.ofFn body) rest (s.atBody _) hm hd rfl rfl rfl (by simp) rfl
  refine ⟨t, (run_succ_of_step _ hstart).trans ((run_add _ 74 hhunt).trans hrun), hphase, hcnt, hmark, fun k => ?_,
    hstim, htrace, hstandby, hcontrol, hlatches, hmotors⟩
  have hread := read_storeBytes s.buf 0 k (List.ofFn body) hw (by simp) (by simp)
  rw [Nat.zero_add, List.getElem_ofFn] at hread
  rw [hbuf]
  exact hread

end Sys2Proof.Machine
end

section
/-! # A FIXED cycle: poll, frame, decode, control and drive (30_encoding.md R70) -/

namespace Sys2Proof.Machine

open Sys2Proof.Claims

/-! ## Arithmetic (00_scope.md R10) -/

theorem wrap32_toInt_eq_wrapInt (z : Int) : (wrap32 z).toInt = wrapInt z := by
  rw [wrap32_toInt, Int.bmod_def, wrapInt]
  omega

theorem integral32_toInt (e integral : Word) : (integral32 e integral).toInt = wrapInt (integral.toInt + e.toInt) :=
  wrap32_toInt_eq_wrapInt _

/-- The turn in closed form: the inner wraps are absorbed by the outer one (43_pid.md R84). -/
theorem turn32_toInt (e integral last : Word) :
    (turn32 e integral last).toInt = wrapInt (16 * e.toInt + integral.toInt - 10 * last.toInt) := by
  rw [turn32, integral32, derivative32]
  simp only [wrap32_toInt_eq_wrapInt, constants_kp, constants_ki, constants_kd, wrapInt]
  omega

/-- PID.STEP overflows exactly where a value of 43_pid.md R86 does not fit. -/
theorem pidOverflows_eq_false_iff (e integral last : Word) :
    pidOverflows e integral last = false ↔ PidFits e.toInt integral.toInt last.toInt := by
  simp only [pidOverflows, List.any_eq_false, Bool.not_eq_true', Bool.not_eq_false, fits32_iff]
  rfl

theorem clamp_eq_max_min (z lo hi : Int) (h : lo ≤ hi) : clamp z lo hi = max lo (min hi z) := by
  unfold clamp
  split
  · omega
  · split <;> omega

/-- A raw error fits `i32` (42_decode.md R83). -/
theorem wrap32_rawSum (b0 b1 b2 b3 b4 : Byte) : (wrap32 (rawSum b0 b1 b2 b3 b4)).toInt = rawSum b0 b1 b2 b3 b4 := by
  refine wrap32_of_fits _ ((fits32_iff _).2 ?_)
  have h0 := b0.isLt
  have h1 := b1.isLt
  have h2 := b2.isLt
  have h3 := b3.isLt
  have h4 := b4.isLt
  unfold rawSum
  omega

/-! ## The poll and the frame (R71, R72) -/

/-- The state after the trigger's transfer. -/
def State.polled (s : State) (rest : List EnvEvent) : State :=
  { s with
    cnt := 0, phase := .recv, stimulus := rest, stepEvents := [.tx 0x30], trace := s.trace ++ [.tx 0x30] }

/-- The state after a whole frame: the bytes stored and phase DECODE. -/
def State.framed (s : State) (bytes : List Byte) (rest : List EnvEvent) : State :=
  { s with
    buf := storeBytes s.buf s.cnt.toNat bytes, cnt := 0, phase := .decode, stimulus := rest, stepEvents := [] }

section
variable {s : State} (hm : s.params.frameMode = .fixed) (hd : s.resetDone = true)
include hm hd

theorem step_poll {rest : List EnvEvent} (hp : s.phase = .start) (hs : s.stimulus = .txa :: rest) :
    step s = .next (s.polled rest) := by
  have hi : selectedOp s = some .fsTrig := by
    simp only [selectedOp, hp, hm, offered_channelEvent hs rfl, if_true]
  rw [step_transfer hs rfl (by simp [takes, txValid, hm, hp]) hd (by rw [hp]; exact phaseLegal_start _) hi, exec_fsTrig]
  rfl

theorem step_recv_byte {b : Byte} {rest : List EnvEvent} (hp : s.phase = .recv) (hs : s.stimulus = .rxb b :: rest) :
    step s = exec (.fsFixb b) (s.taking rest) := by
  have hi : selectedOp s = some (.fsFixb b) := by
    rw [(selectedOp_receive s).1 hp, offered_channelEvent hs rfl, receiveOp]
  exact step_transfer hs rfl (by simp [takes, rxReady, hp]) hd (by rw [hm, hp]; rfl) hi

theorem step_recv_more {b : Byte} {rest : List EnvEvent} (hp : s.phase = .recv) (hs : s.stimulus = .rxb b :: rest)
    (hc : s.cnt.toNat < 4) :
    step s = .next { s.taking rest with buf := Memory.write s.buf s.cnt.toNat b, cnt := s.cnt + 1 } := by
  have hlt : (s.taking rest).cnt.toNat < 4 := hc
  rw [step_recv_byte hm hd hp hs, exec_fsFixb b _ (by omega), if_neg (by omega), ← hp]
  rfl

theorem step_recv_last {b : Byte} {rest : List EnvEvent} (hp : s.phase = .recv) (hs : s.stimulus = .rxb b :: rest)
    (hc : s.cnt.toNat = 4) : step s = .next (s.framed [b] rest) := by
  have hlast : (s.taking rest).cnt.toNat = 4 := hc
  rw [step_recv_byte hm hd hp hs, exec_fsFixb b _ (by omega), if_pos hlast]
  rfl

end

/-- A frame from index `cnt` on is received to its fifth byte. -/
theorem run_frame (bytes : List Byte) (rest : List EnvEvent) (s : State) (hm : s.params.frameMode = .fixed)
    (hd : s.resetDone = true) (hp : s.phase = .recv) (hs : s.stimulus = bytes.map .rxb ++ rest)
    (hlen : s.cnt.toNat + bytes.length = 5) (hc : s.cnt.toNat < 5) :
    Host.Core.run core bytes.length s = .next (s.framed bytes rest) := by
  induction bytes generalizing s with
  | nil => rw [List.length_nil] at hlen; omega
  | cons b bytes ih =>
    rw [List.length_cons] at hlen
    cases bytes with
    | nil => exact run_one (step_recv_last hm hd hp hs (Nat.succ.inj hlen))
    | cons b' bytes =>
      rw [List.length_cons] at hlen
      have hcnt := count_succ_toNat s.cnt (by omega)
      have hrest := ih { s.taking ((b' :: bytes).map .rxb ++ rest) with
          buf := Memory.write s.buf s.cnt.toNat b, cnt := s.cnt + 1 } hm hd hp rfl
        (by rw [hcnt, List.length_cons]; omega) (by rw [hcnt]; omega)
      refine (run_succ_of_step _ (step_recv_more hm hd hp hs (by omega))).trans (hrest.trans ?_)
      rw [State.framed, hcnt]
      rfl

/-! ## The three internal steps (42_decode.md R80, 43_pid.md R84, 44_drive_map.md R91) -/

/-- Internal steps without a reset: the first one takes the RANGE lines and an idle step, the others go on from there. -/
theorem afterInternalSteps_succ {n : Nat} {s : State} {after : List EnvEvent × Half}
    (h : afterInternalSteps (n + 1) s.stimulus s.rangeIn = some after) :
    offered s ≠ some .reset ∧ afterInternalSteps n s.passing.stimulus s.passing.rangeIn = some after := by
  rw [afterInternalSteps] at h
  split at h
  · cases h
  · next ho => exact ⟨ho, h⟩

/-- The state after DEC.RAW. -/
def State.decoded (s : State) : State :=
  { s with
    errReg := wrap32 (rawError s), flag0 := directionFlag (memRead s 0), flag1 := directionFlag (memRead s 1)
    phase := .pid }

/-- The inputs after the steps that make no transfer. -/
def State.withInputs (s : State) (left : List EnvEvent) (r : Half) : State :=
  { s with stimulus := left, rangeIn := r, stepEvents := [] }

section
variable {s : State} (hd : s.resetDone = true) (ho : offered s ≠ some .reset)
include hd ho

theorem step_decode_fixed (hm : s.params.frameMode = .fixed) (hp : s.phase = .decode) :
    step s = .next s.passing.decoded := by
  have hi : selectedOp s = some .decRaw := by simp only [selectedOp, hp, hm]
  rw [step_internal ho hd (by rw [hp]; exact phaseLegal_decode _) (by simp [rxReady, hp]) (by simp [txValid, hp]) hi,
    exec_decRaw]
  rfl

/-- PID.STEP where nothing overflows that is to halt. -/
theorem step_pid (hp : s.phase = .pid)
    (hfits : s.params.arithOverflow = .halt → PidFits s.errReg.toInt s.integral.toInt s.lastError.toInt) :
    step s = .next (commitPid s.passing) := by
  have hi : selectedOp s = some (.pidStep s.params.frameMode) := by simp only [selectedOp, hp]
  have hcommit : ¬ (s.params.arithOverflow = .halt ∧ pidOverflows s.errReg s.integral s.lastError = true) := by
    rintro ⟨hhalt, hover⟩
    simp [(pidOverflows_eq_false_iff _ _ _).2 (hfits hhalt)] at hover
  rw [step_internal ho hd (by rw [hp]; exact phaseLegal_pid _) (by simp [rxReady, hp]) (by simp [txValid, hp]) hi,
    exec_pidStep]
  exact congrArg _ (if_neg hcommit)

theorem step_map (hp : s.phase = .map) : step s = exec (.mapDrv s.params.frameMode) s.passing := by
  have hi : selectedOp s = some (.mapDrv s.params.frameMode) := by simp only [selectedOp, hp]
  exact step_internal ho hd (by rw [hp]; exact phaseLegal_map _) (by simp [rxReady, hp]) (by simp [txValid, hp]) hi

end

/-- From DECODE in FIXED mode, three steps without a reset decode, run the control law and map its outcome. -/
theorem run_decode_pid_map {s t : State} {left : List EnvEvent} {r : Half} (hm : s.params.frameMode = .fixed)
    (hd : s.resetDone = true) (hp : s.phase = .decode)
    (hleft : afterInternalSteps 3 s.stimulus s.rangeIn = some (left, r))
    (hfits : s.params.arithOverflow = .halt →
      PidFits s.decoded.errReg.toInt s.integral.toInt s.lastError.toInt)
    (hx : exec (.mapDrv .fixed) ((commitPid s.decoded).withInputs left r) = .next t) :
    Host.Core.run core 3 s = .next t := by
  obtain ⟨ho, hleft⟩ := afterInternalSteps_succ hleft
  have hdecode := step_decode_fixed hd ho hm hp
  obtain ⟨ho, hleft⟩ := afterInternalSteps_succ (s := s.passing.decoded) hleft
  have hpid := step_pid (s := s.passing.decoded) hd ho rfl hfits
  obtain ⟨ho, hleft⟩ := afterInternalSteps_succ (s := commitPid s.passing.decoded.passing) hleft
  have hmap := step_map (s := commitPid s.passing.decoded.passing) hd ho rfl
  obtain ⟨rfl, rfl⟩ := Prod.mk.inj (Option.some.inj hleft)
  refine (run_succ_of_step 2 hdecode).trans ((run_succ_of_step 1 hpid).trans (run_one (hmap.trans ?_)))
  rw [← hx, ← hm]
  rfl

/-! ## The drive outputs (44_drive_map.md R93 to R95) -/

theorem rightDuty_toNat (base : Byte) (turn : Word) :
    ((rightDuty base turn).toNat : Int) = max 0 (min 100 ((base.toNat : Int) + turn.toInt)) := by
  rw [rightDuty, dutyOf_toNat, clamp_eq_max_min _ _ _ (by decide)]

theorem leftDuty_toNat (base : Byte) (turn : Word) :
    ((leftDuty base turn).toNat : Int) = max 0 (min 100 ((base.toNat : Int) - turn.toInt)) := by
  rw [leftDuty, dutyOf_toNat, clamp_eq_max_min _ _ _ (by decide)]

theorem exec_mapDrv_phase (m : FrameMode) (s t : State) (hx : exec (.mapDrv m) s = .next t) : t.phase = .start := by
  cases exec_effect _ s t hx <;> rfl

/-- With a direction flag set both motors are driven, and standby is the range gate. -/
theorem exec_mapDrv_drives {m : FrameMode} {s t : State} (hx : exec (.mapDrv m) s = .next t)
    (h : s.flag0 = true ∨ s.flag1 = true) :
    t.motaFwd = s.flag0 ∧ t.motbFwd = s.flag1 ∧ t.motaDuty = rightDuty s.params.baseSpeed s.turnReg ∧
      t.motbDuty = leftDuty s.params.baseSpeed s.turnReg ∧ t.standby = rangeGate s.rangeIn ∧
      t.trace = s.trace ++ [.drive .a t.motaFwd t.motaDuty, .drive .b t.motbFwd t.motbDuty] := by
  rw [exec_mapDrv_drive m s _ _ (directions_eq_some _ _ h)] at hx
  cases hx
  exact ⟨rfl, rfl, rfl, rfl, rfl, by simp⟩

/-- Without a direction flag the motors hold and standby engages. -/
theorem exec_mapDrv_holds {m : FrameMode} {s t : State} (hx : exec (.mapDrv m) s = .next t)
    (h : s.flag0 = false ∧ s.flag1 = false) : SameMotors s t ∧ t.standby = true ∧ t.trace = s.trace := by
  rw [exec_mapDrv_stop m s ((directions_eq_none _ _).2 h)] at hx
  cases hx
  exact ⟨⟨rfl, rfl, rfl, rfl⟩, rfl, rfl⟩

/-! ## The cycle (R70) -/

/-- What DEC.RAW reads from a frame that was stored from index 0 on. -/
theorem decoded_frame {m : Memory} {s : State} {b0 b1 b2 b3 b4 : Byte} (hm : Memory.wf m = true)
    (hs : s.buf = storeBytes m 0 [b0, b1, b2, b3, b4]) :
    s.decoded.errReg.toInt = rawSum b0 b1 b2 b3 b4 ∧ s.decoded.flag0 = decide (b0 = 48) ∧
      s.decoded.flag1 = decide (b1 = 48) := by
  have hread (k : Fin 74) (hk : k.val < 5) : memRead s k = [b0, b1, b2, b3, b4][k.val] := by
    have h := read_storeBytes m 0 k [b0, b1, b2, b3, b4] hm (by simp) hk
    rwa [Nat.zero_add, ← hs, ← memRead_eq] at h
  have h0 := hread 0 (by decide)
  have h1 := hread 1 (by decide)
  have hraw : rawError s = rawSum b0 b1 b2 b3 b4 := by
    rw [rawError, h0, h1, hread 2 (by decide), hread 3 (by decide), hread 4 (by decide)]
    rfl
  have hflag (b : Byte) : directionFlag b = decide (b = 48) := by
    rw [Bool.eq_iff_iff, directionFlag_iff, decide_eq_true_iff]
  refine ⟨?_, ?_, ?_⟩
  · rw [State.decoded, hraw, wrap32_rawSum]
  · rw [State.decoded, h0, hflag]
    rfl
  · rw [State.decoded, h1, hflag]
    rfl

/-- A polled frame of five bytes, all received: they are stored from index 0 on, and beside the trigger nothing is
emitted and nothing else is written. -/
structure FrameReceived (bytes : List Byte) (rest : List EnvEvent) (s t : State) : Prop where
  phase : t.phase = .decode
  cnt : t.cnt = 0
  buf : t.buf = storeBytes s.buf 0 bytes
  trace : t.trace = s.trace ++ [.tx 0x30]
  control : SameControl s t
  motors : SameMotors s t
  params : t.params = s.params
  stimulus : t.stimulus = rest
  rangeIn : t.rangeIn = s.rangeIn
  resetDone : t.resetDone = s.resetDone

theorem framed_polled (bytes : List Byte) (evs rest : List EnvEvent) (s : State) :
    FrameReceived bytes rest s ((s.polled evs).framed bytes rest) where
  phase := rfl
  cnt := rfl
  buf := congrArg (storeBytes s.buf · bytes) (rfl : (s.polled evs).cnt.toNat = 0)
  trace := rfl
  control := ⟨rfl, rfl⟩
  motors := ⟨rfl, rfl, rfl, rfl⟩
  params := rfl
  stimulus := rfl
  rangeIn := rfl
  resetDone := rfl

/-- Poll and frame take six steps. -/
theorem run_poll_frame (bytes : List Byte) (rest : List EnvEvent) (s : State) (hm : s.params.frameMode = .fixed)
    (hd : s.resetDone = true) (hp : s.phase = .start) (hlen : bytes.length = 5)
    (hs : s.stimulus = .txa :: (bytes.map .rxb ++ rest)) :
    ∃ t : State, Host.Core.run core 6 s = .next t ∧ FrameReceived bytes rest s t := by
  have hcnt : (s.polled (bytes.map .rxb ++ rest)).cnt.toNat = 0 := rfl
  have hframe := run_frame bytes rest (s.polled _) hm hd rfl rfl (by rw [hcnt, hlen]) (by rw [hcnt]; decide)
  rw [hlen] at hframe
  exact ⟨_, (run_succ_of_step 5 (step_poll hm hd hp hs)).trans hframe, framed_polled bytes _ rest s⟩

/-- Settles O53: poll and frame, then `run_decode_pid_map` on the frame received. -/
theorem fixedCycleTakesNineSteps : Obligations.FixedCycleTakesNineSteps := by
  intro s b0 b1 b2 b3 b4 rest left r e hm hp hd hw hs hleft he hfits
  obtain ⟨u, hpoll, hu⟩ := run_poll_frame [b0, b1, b2, b3, b4] rest s hm hd hp rfl hs
  obtain ⟨herr, hf0, hf1⟩ := decoded_frame hw hu.buf
  rw [← he] at herr
  obtain ⟨hint, hlast⟩ := hu.control
  obtain ⟨t, hx⟩ := exec_answers_next (.mapDrv .fixed) ((commitPid u.decoded).withInputs left r)
    (hu.cnt ▸ by decide)
  have hcycle := run_decode_pid_map (by rw [hu.params, hm]) (by rw [hu.resetDone, hd]) hu.phase
    (by rw [hu.stimulus, hu.rangeIn, hleft]) (by rw [hu.params, herr, hint, hlast]; exact hfits) hx
  obtain ⟨⟨hint', hlast'⟩, hturn⟩ := exec_control _ _ t hx nofun
  obtain ⟨-, hstim, hrange, -⟩ := exec_environment _ _ t hx
  have hcnt := (exec_count_mark _ _ t hx (.inr (.inr ⟨_, rfl⟩))).1
  refine ⟨t, (run_add 6 3 hpoll).trans hcycle, exec_mapDrv_phase _ _ t hx, hcnt.trans hu.cnt, hstim, hrange, ?_, ?_, ?_,
    fun hb => ?_, fun hb0 hb1 => ?_⟩
  · rw [hint', ← herr, ← hint]
    exact integral32_toInt _ _
  · rw [hlast']
    exact herr
  · rw [hturn, ← herr, ← hint, ← hlast]
    exact turn32_toInt _ _ _
  · have hflags : u.decoded.flag0 = true ∨ u.decoded.flag1 = true := by simpa [hf0, hf1] using hb
    obtain ⟨hfa, hfb, hda, hdb, hstandby, htrace⟩ := exec_mapDrv_drives hx hflags
    refine ⟨hfa.trans hf0, hfb.trans hf1, ?_, ?_, hstandby, ?_⟩
    · rw [hda, hturn, ← hu.params]
      exact rightDuty_toNat _ _
    · rw [hdb, hturn, ← hu.params]
      exact leftDuty_toNat _ _
    · rw [htrace]
      exact (congrArg (· ++ _) hu.trace).trans (List.append_assoc _ _ _)
  · have hflags : u.decoded.flag0 = false ∧ u.decoded.flag1 = false := by
      rw [hf0, hf1]
      exact ⟨decide_eq_false hb0, decide_eq_false hb1⟩
    obtain ⟨hmotors, hstandby, htrace⟩ := exec_mapDrv_holds hx hflags
    exact ⟨sameMotors_trans hu.motors hmotors, hstandby, htrace.trans hu.trace⟩

end Sys2Proof.Machine
end

section
/-! # What the two decode operations do (42_decode.md R80 to R83) -/

namespace Sys2Proof.Machine

open Sys2Proof.Claims

/-- Neither decode operation writes what the other stages own (R82). -/
theorem exec_decode_frame (i : Instr) (s t : State) (hi : i = .decRaw ∨ i = .decStr) (hx : exec i s = .next t) :
    SameControl s t ∧ t.turnReg = s.turnReg ∧ SameMotors s t ∧ t.buf = s.buf := by
  have hop : (∀ m, i ≠ .pidStep m) ∧ (∀ m, i ≠ .mapDrv m) ∧ (∀ b, i ≠ .fsFixb b) ∧ (∀ b, i ≠ .fsBodyb b) ∧
      i ≠ .fsBodyf := by
    obtain rfl | rfl := hi <;> exact ⟨nofun, nofun, nofun, nofun, nofun⟩
  obtain ⟨hpid, hmap, hfixb, hbodyb, hbodyf⟩ := hop
  obtain ⟨hcontrol, hturn⟩ := exec_control i s t hx hpid
  exact ⟨hcontrol, hturn, exec_motors i s t hx hmap, exec_buf i s t hx hfixb hbodyb hbodyf⟩

/-! ## DEC.RAW (R80) -/

theorem decoded_errReg_toInt (s : State) :
    s.decoded.errReg.toInt = rawSum (Memory.read s.buf 0) (Memory.read s.buf 1) (Memory.read s.buf 2)
      (Memory.read s.buf 3) (Memory.read s.buf 4) :=
  wrap32_rawSum _ _ _ _ _

/-- The marker is byte 48 (30_encoding.md R54). -/
theorem directionFlag_iff_toNat (b : Byte) : directionFlag b = true ↔ b.toNat = 48 :=
  (directionFlag_iff b).trans BitVec.toNat_inj.symm

/-- Settles O23, by R80's equation. -/
theorem decRawWeighsTheFiveBytes : Obligations.DecRawWeighsTheFiveBytes := by
  intro s
  have hx : exec .decRaw s = .next s.decoded := exec_decRaw s
  obtain ⟨hcontrol, hturn, hmotors, -⟩ := exec_decode_frame _ s _ (.inl rfl) hx
  obtain ⟨hcnt, hmark⟩ := exec_count_mark _ s _ hx (.inl rfl)
  exact ⟨_, hx, decoded_errReg_toInt s, directionFlag_iff_toNat _, directionFlag_iff_toNat _, rfl,
    exec_emits _ s _ hx, hcnt, hmark, exec_standby _ s _ hx nofun, hturn, hcontrol, hmotors, fun _ => rfl,
    exec_environment _ s _ hx⟩

/-- The raw error of any five bytes is a multiple of 5 in -15..19110 (R83). -/
theorem rawSum_range (b0 b1 b2 b3 b4 : Byte) :
    -15 ≤ rawSum b0 b1 b2 b3 b4 ∧ rawSum b0 b1 b2 b3 b4 ≤ 19110 ∧ rawSum b0 b1 b2 b3 b4 % 5 = 0 := by
  have h0 := b0.isLt
  have h1 := b1.isLt
  have h2 := b2.isLt
  have h3 := b3.isLt
  have h4 := b4.isLt
  unfold rawSum
  omega

/-- A marker byte alone weighs 5 * 48 or 10 * 48 (R83). -/
theorem rawSum_ge_of_marker (b0 b1 b2 b3 b4 : Byte) :
    (b0.toNat = 48 → 225 ≤ rawSum b0 b1 b2 b3 b4) ∧ (b1.toNat = 48 → 465 ≤ rawSum b0 b1 b2 b3 b4) := by
  unfold rawSum
  omega

/-- With both markers only three bytes are free (R83). -/
theorem rawSum_range_of_markers (b0 b1 b2 b3 b4 : Byte) (h0 : b0.toNat = 48) (h1 : b1.toNat = 48) :
    705 ≤ rawSum b0 b1 b2 b3 b4 ∧ rawSum b0 b1 b2 b3 b4 ≤ 16005 := by
  have h2 := b2.isLt
  have h3 := b3.isLt
  have h4 := b4.isLt
  unfold rawSum
  omega

/-- Settles O24: the error and the flags of O23, and the bounds of `rawSum`. -/
theorem rawErrorStaysInItsRange : Obligations.RawErrorStaysInItsRange := by
  intro s t hx
  obtain ⟨u, hu, herr, hf0, hf1, -⟩ := decRawWeighsTheFiveBytes s
  obtain rfl : u = t := Host.Outcome.next.inj (hu.symm.trans hx)
  obtain ⟨hlo, hhi, hmul⟩ := rawSum_range (Memory.read s.buf 0) (Memory.read s.buf 1) (Memory.read s.buf 2)
    (Memory.read s.buf 3) (Memory.read s.buf 4)
  obtain ⟨hmarker0, hmarker1⟩ := rawSum_ge_of_marker (Memory.read s.buf 0) (Memory.read s.buf 1)
    (Memory.read s.buf 2) (Memory.read s.buf 3) (Memory.read s.buf 4)
  rw [herr, hf0, hf1]
  exact ⟨hlo, hhi, hmul, hmarker0, hmarker1, rawSum_range_of_markers _ _ _ _ _⟩

/-! ## DEC.STR (R81), for any `STRUCT_DECODE` -/

section
variable (dec : StructDecode) (s : State)

theorem execDecStrWith_fail (h : dec (frameBody s) = none) :
    execDecStrWith dec s = .next (faultAndAbandon .decode s) := by
  rw [execDecStrWith, h, commitStructured_none]

theorem execDecStrWith_record (r : StructRecord) (h : dec (frameBody s) = some r) :
    execDecStrWith dec s =
      .next { s with errReg := r.error, flag0 := r.flag0, flag1 := r.flag1, phase := .pid } := by
  rw [execDecStrWith, h, commitStructured_some]

theorem execDecStrWith_structuredDecode : StructuredDecode dec s (execDecStrWith dec s) := by
  have hbody : (fun k : Fin 74 => Memory.read s.buf k.val) = frameBody s := rfl
  unfold StructuredDecode
  rw [hbody]
  cases h : dec (frameBody s) with
  | none =>
    exact ⟨_, execDecStrWith_fail dec s h, ⟨rfl, rfl⟩, rfl, ⟨rfl, rfl, rfl, rfl⟩, fun _ => rfl, ⟨rfl, rfl, rfl, rfl⟩,
      ⟨rfl, rfl⟩, standbyAfterFault_eq s, ⟨rfl, rfl, rfl⟩, ⟨rfl, rfl, rfl, rfl⟩⟩
  | some r =>
    exact ⟨_, execDecStrWith_record dec s r h, ⟨rfl, rfl⟩, rfl, ⟨rfl, rfl, rfl, rfl⟩, fun _ => rfl,
      ⟨rfl, rfl, rfl, rfl⟩, ⟨(List.append_nil _).symm, (List.append_nil _).symm⟩, rfl, rfl, rfl, rfl, rfl, rfl, rfl⟩

end

/-- Settles O25: the block's DEC.STR is the meaning with its own decoder. -/
theorem decStrCommitsOrAbandons : Obligations.DecStrCommitsOrAbandons :=
  ⟨execDecStrWith_structuredDecode Config.structDecode, execDecStrWith_structuredDecode⟩

/-- Settles O26: the frame of both operations, and the state a failed decode leaves. -/
theorem decodeIsPure : Obligations.DecodeIsPure := by
  refine ⟨exec_decode_frame, fun dec s t h hx => ?_⟩
  obtain rfl : faultAndAbandon .decode s = t := Host.Outcome.next.inj ((execDecStrWith_fail dec s h).symm.trans hx)
  rw [faultAndAbandon_eq, standbyAfterFault_eq]

end Sys2Proof.Machine
end

section
/-! # What PID.STEP does (43_pid.md R84 to R90) -/

namespace Sys2Proof.Machine

open Sys2Proof.Claims

/-! ## Arithmetic (00_scope.md R10) -/

theorem wrapInt_eq_self_iff (z : Int) : wrapInt z = z ↔ -2147483648 ≤ z ∧ z ≤ 2147483647 := by
  unfold wrapInt
  omega

theorem wrapInt_toInt (w : Word) : wrapInt w.toInt = w.toInt := by
  rw [← wrap32_toInt_eq_wrapInt, wrap32_toInt_self]

/-- The turn as 43_pid.md R84 writes it: from the new integral and the derivative. -/
theorem turn32_toInt_eq (e integral last : Word) :
    (turn32 e integral last).toInt =
      wrapInt (5 * e.toInt + 1 * (integral32 e integral).toInt + 10 * wrapInt (e.toInt - last.toInt)) := by
  rw [turn32, wrap32_toInt_eq_wrapInt, derivative32, wrap32_toInt_eq_wrapInt]
  rfl

section
variable {e integral last : Word} (h : PidFits e.toInt integral.toInt last.toInt)
include h

/-- Where the values of R86 fit, the new integral is the exact sum. -/
theorem integral32_toInt_of_fits : (integral32 e integral).toInt = integral.toInt + e.toInt := by
  rw [integral32_toInt]
  exact (wrapInt_eq_self_iff _).2 (h _ (by simp))

/-- Where the values of R86 fit, the turn is their exact `t`. -/
theorem turn32_toInt_of_fits :
    (turn32 e integral last).toInt =
      5 * e.toInt + (integral.toInt + e.toInt) + 10 * (e.toInt - last.toInt) := by
  have hclosed : 16 * e.toInt + integral.toInt - 10 * last.toInt =
      5 * e.toInt + (integral.toInt + e.toInt) + 10 * (e.toInt - last.toInt) := by ring
  rw [turn32_toInt, hclosed]
  exact (wrapInt_eq_self_iff _).2 (h _ (by simp))

end

/-! ## The two outcomes of PID.STEP (R84, R86) -/

theorem pidOverflows_iff (e integral last : Word) :
    pidOverflows e integral last = true ↔ ¬ PidFits e.toInt integral.toInt last.toInt := by
  rw [← pidOverflows_eq_false_iff, Bool.not_eq_false]

/-- PID.STEP commits under WRAP, and under HALT where every value of R86 fits. -/
theorem exec_pidStep_commit (m : FrameMode) (s : State)
    (h : s.params.arithOverflow = .halt → PidFits s.errReg.toInt s.integral.toInt s.lastError.toInt) :
    exec (.pidStep m) s = .next (commitPid s) := by
  rw [exec_pidStep, if_neg fun ⟨hhalt, hover⟩ => (pidOverflows_iff _ _ _).1 hover (h hhalt)]

/-- PID.STEP halts under HALT where a value of R86 does not fit. -/
theorem exec_pidStep_halt (m : FrameMode) (s : State) (hhalt : s.params.arithOverflow = .halt)
    (h : ¬ PidFits s.errReg.toInt s.integral.toInt s.lastError.toInt) :
    exec (.pidStep m) s = .next (halt s) := by
  rw [exec_pidStep, if_pos ⟨hhalt, (pidOverflows_iff _ _ _).2 h⟩]

theorem exec_pidStep_wrap (m : FrameMode) (s : State) (hw : s.params.arithOverflow = .wrap) :
    exec (.pidStep m) s = .next (commitPid s) :=
  exec_pidStep_commit m s (by simp [hw])

/-- What a PID.STEP that commits leaves unchanged, and its phase (R84). -/
def PidFrame (s t : State) : Prop :=
  t.phase = .map ∧ t.errReg = s.errReg ∧ t.flag0 = s.flag0 ∧ t.flag1 = s.flag1 ∧ t.cnt = s.cnt ∧
    t.frameErr = s.frameErr ∧ t.standby = s.standby ∧ Emits s t [] ∧ SameMotors s t ∧ SameBuffer s t ∧
    SameEnvironment s t

theorem commitPid_frame (s : State) : PidFrame s (commitPid s) :=
  ⟨rfl, rfl, rfl, rfl, rfl, rfl, rfl, ⟨(List.append_nil _).symm, (List.append_nil _).symm⟩, ⟨rfl, rfl, rfl, rfl⟩,
    fun _ => rfl, ⟨rfl, rfl, rfl, rfl⟩⟩

/-- Settles O27, by R84's equation. -/
theorem pidStepWraps : Obligations.PidStepWraps := fun m s hw =>
  ⟨_, exec_pidStep_wrap m s hw, integral32_toInt _ _, rfl, turn32_toInt_eq _ _ _,
    commitPid_frame s⟩

/-- Settles O28: the six values are those of `PidFits`. -/
theorem pidStepHaltsOnOverflow : Obligations.PidStepHaltsOnOverflow := by
  rintro m s _ _ _ _ _ _ hhalt rfl rfl rfl rfl rfl rfl
  constructor
  · intro (hfits : PidFits s.errReg.toInt s.integral.toInt s.lastError.toInt)
    exact ⟨_, exec_pidStep_commit m s fun _ => hfits, integral32_toInt_of_fits hfits, rfl,
      turn32_toInt_of_fits hfits, commitPid_frame s⟩
  · rintro ⟨z, hz, hout⟩
    refine exec_pidStep_halt m s hhalt fun hfits => ?_
    have hin := hfits z hz
    omega

/-- Settles O29, by the closed form of `turn32`. -/
theorem turnHasItsClosedForm : Obligations.TurnHasItsClosedForm := by
  intro m s hw
  refine ⟨_, exec_pidStep_wrap m s hw, ?_, turn32_toInt _ _ _, fun hsteady => ?_⟩
  · rw [commitPid_turnReg, turn32_toInt]
    congr 1
    omega
  · rw [commitPid_turnReg, turn32_toInt, hsteady]
    congr 1
    omega

/-! ## The overflow horizon (70_reset_and_hazards.md R130) -/

/-- The two runs of equal errors of R130: the error, the first frame whose turn does not fit, and the first whose
integral does not. -/
def Horizon (e : Int) (turnAt integralAt : Nat) : Prop :=
  (e = 19110 ∧ turnAt = 112370 ∧ integralAt = 112375) ∨ (e = -15 ∧ turnAt = 143165572 ∧ integralAt = 143165577)

section
variable {e : Int} {turnAt integralAt : Nat} (h : Horizon e turnAt integralAt) (n : Nat)
include h

theorem integral_fits_iff_before_horizon :
    (-2147483648 ≤ n * e ∧ n * e ≤ 2147483647) ↔ n < integralAt := by
  obtain ⟨rfl, -, rfl⟩ | ⟨rfl, -, rfl⟩ := h <;> omega

/-- The turn at frame `n`: the derivative is the error itself at frame 1 and 0 after it. -/
theorem turn_fits_iff_before_horizon (hn : 1 ≤ n) :
    (-2147483648 ≤ 5 * e + n * e + (if n = 1 then 10 * e else 0) ∧
      5 * e + n * e + (if n = 1 then 10 * e else 0) ≤ 2147483647) ↔ n < turnAt := by
  obtain ⟨rfl, rfl, -⟩ | ⟨rfl, rfl, -⟩ := h <;> split <;> omega

/-- Of the six values of 43_pid.md R86 the turn is the first to leave `i32`. -/
theorem pidFits_iff_before_horizon (hn : 1 ≤ n) :
    PidFits e ((n - 1) * e) (if n = 1 then 0 else e) ↔ n < turnAt := by
  unfold PidFits
  simp only [List.forall_mem_cons, List.not_mem_nil, false_imp_iff, implies_true, and_true]
  obtain ⟨rfl, rfl, -⟩ | ⟨rfl, rfl, -⟩ := h <;> split <;> omega

end

/-- The integral after frame `n`. -/
theorem integral_at_frame (n : Nat) (e : Int) : ((n : Int) - 1) * e + e = n * e := by ring

/-- The closed form of the turn at frame `n`. -/
theorem turn_at_frame (n : Nat) (e : Int) :
    16 * e + (n - 1) * e - 10 * (if n = 1 then 0 else e) = 5 * e + n * e + (if n = 1 then 10 * e else 0) := by
  split <;> ring

/-- Settles O31: which values fit at frame `n` decides whether PID.STEP halts, and what wraps. -/
theorem overflowHorizonIsWhereTheSpecSays : Obligations.OverflowHorizonIsWhereTheSpecSays := by
  intro m s n e turnAt integralAt (hhorizon : Horizon e turnAt integralAt) hn he hlast hint
  subst he
  have hfits := pidFits_iff_before_horizon hhorizon n hn
  rw [← hint, ← hlast] at hfits
  have hintegral := integral_at_frame n s.errReg.toInt
  have hturn := turn_at_frame n s.errReg.toInt
  rw [← hint] at hintegral
  rw [← hint, ← hlast] at hturn
  cases hmode : s.params.arithOverflow with
  | wrap =>
    refine ⟨_, exec_pidStep_wrap m s hmode, nofun, fun _ => ⟨?_, ?_, rfl⟩⟩
    · rw [commitPid_turnReg, turn32_toInt, hturn, wrapInt_eq_self_iff]
      exact turn_fits_iff_before_horizon hhorizon n hn
    · rw [commitPid_integral, integral32_toInt, hintegral, wrapInt_eq_self_iff]
      exact integral_fits_iff_before_horizon hhorizon n
  | halt =>
    by_cases hbefore : n < turnAt
    · refine ⟨_, exec_pidStep_commit m s fun _ => hfits.2 hbefore, fun _ => ⟨?_, fun _ => ⟨?_, rfl⟩⟩, nofun⟩
      · simpa using hbefore
      · rw [commitPid_integral, integral32_toInt_of_fits (hfits.2 hbefore), hintegral]
    · refine ⟨_, exec_pidStep_halt m s hmode (mt hfits.1 hbefore), fun _ => ⟨?_, fun h => absurd h hbefore⟩, nofun⟩
      simpa using hbefore

end Sys2Proof.Machine
end

section
/-! # The accumulation law: a run without a reset sums its errors (43_pid.md R86, R88) -/

namespace Sys2Proof.Machine

open Sys2Proof.Claims

/-! ## Steps of a run without a reset (10_state.md R33; 70_reset_and_hazards.md R119) -/

theorem settleRange_suffix (evs : List EnvEvent) (r : Half) : (settleRange evs r).1 <:+ evs := by
  induction evs generalizing r with
  | nil => exact List.suffix_rfl
  | cons e evs ih =>
    cases e with
    | range n => exact (ih n).trans (List.suffix_cons _ _)
    | _ => exact List.suffix_rfl

theorem takeEvent_suffix (s : State) : (takeEvent s).stimulus <:+ s.stimulus := by
  cases hs : s.stimulus with
  | nil => rw [takeEvent_stimulus_nil s hs]
  | cons e rest =>
    rw [takeEvent_stimulus_cons s e rest hs]
    split
    · exact List.suffix_cons _ _
    · exact List.suffix_rfl

/-- A stimulus without a RESET line offers no reset. -/
theorem offered_ne_reset {s : State} (h : EnvEvent.reset ∉ s.stimulus) : offered s ≠ some .reset :=
  fun ho => h ((settleRange_suffix _ _).mem (List.mem_of_mem_head? ho))

/-- What a step keeps that makes the next step of the run another step without a reset under the same parameters. -/
theorem step_keeps_run {s t : State} (h : EnvEvent.reset ∉ s.stimulus) (hst : step s = .next t) :
    t.params = s.params ∧ EnvEvent.reset ∉ t.stimulus := by
  have hr := (rst_eq_false_iff s).2 (offered_ne_reset h)
  constructor
  · obtain ⟨hr', -⟩ | ⟨-, -, -, -, rfl⟩ | ⟨-, -, -, k, i, -, -, hx⟩ := step_cases s t hst
    · simp [hr] at hr'
    · exact takeEvent_params _
    · exact (exec_environment i _ t hx).1.trans (takeEvent_params _)
  · rw [step_stimulus s t hr hst]
    exact fun hm => h ((settleRange_suffix _ _).mem ((takeEvent_suffix _).mem hm))

/-- Only PID.STEP halts the block (60_exceptions.md R110). -/
theorem exec_halts_only_pidStep (i : Instr) (s t : State) (hx : exec i s = .next t) (hp : t.phase = .halted) :
    ∃ m, i = .pidStep m := by
  cases exec_effect i s t hx with
  | pidHalt m => exact ⟨m, rfl⟩
  | _ => cases hp

theorem step_halts_only_in_pid {s t : State} (h : EnvEvent.reset ∉ s.stimulus) (hst : step s = .next t)
    (hp : t.phase = .halted) : s.phase = .pid := by
  have hr := (rst_eq_false_iff s).2 (offered_ne_reset h)
  obtain ⟨hr', -⟩ | ⟨-, -, hne, -, rfl⟩ | ⟨-, -, -, k, i, hk, hi, hx⟩ := step_cases s t hst
  · simp [hr] at hr'
  · exact absurd (by simpa using hp) hne
  · obtain ⟨m, rfl⟩ := exec_halts_only_pidStep i _ t hx hp
    exact (selected_phase_mode s k _ hk hi).1

/-- A run of one or more steps that answers a next state has a first step that does. -/
theorem machine_run_succ_cases {M : Host.Core} {s t : M.State} {n : Nat} (h : M.run (n + 1) s = .next t) :
    ∃ u, M.step s = .next u ∧ M.run n u = .next t := by
  rw [Host.Core.run] at h
  cases hst : M.step s with
  | next u => rw [hst] at h; exact ⟨u, rfl, h⟩
  | fault r => rw [hst] at h; cases h
  | refused r => rw [hst] at h; cases h

theorem run_succ_cases {s t : State} {n : Nat} (h : Host.Core.run core (n + 1) s = .next t) :
    ∃ u, step s = .next u ∧ Host.Core.run core n u = .next t :=
  machine_run_succ_cases (M := core) h

/-- A run does not go on from HALTED without a reset (R110). -/
theorem run_halted {n : Nat} {s t : State} (hd : s.resetDone = true) (h : EnvEvent.reset ∉ s.stimulus)
    (hp : s.phase = .halted) (hrun : Host.Core.run core n s = .next t) : n = 0 := by
  cases n with
  | zero => rfl
  | succ n =>
    obtain ⟨u, hst, -⟩ := run_succ_cases hrun
    rw [step_of_halted s ((rst_eq_false_iff s).2 (offered_ne_reset h)) hd hp] at hst
    cases hst

/-! ## The law of one step -/

/-- How a sum is brought into `i32`: wrapped under WRAP, taken as it is under HALT, where it fits (R84, R86). -/
def rounding : ArithOverflow → Int → Int
  | .wrap, z => wrapInt z
  | .halt, z => z

theorem rounding_toInt (a : ArithOverflow) (w : Word) : rounding a w.toInt = w.toInt := by
  cases a with
  | wrap => exact wrapInt_toInt w
  | halt => rfl

/-- Rounding a partial sum does not change the rounded sum. -/
theorem rounding_add (a : ArithOverflow) (y z : Int) : rounding a (rounding a y + z) = rounding a (y + z) := by
  cases a with
  | wrap =>
    simp only [rounding, wrapInt]
    omega
  | halt => rfl

/-- ControlState of `t` is that of `s` after the errors `es` (R88). -/
def Accumulates (es : List Word) (s t : State) : Prop :=
  t.integral.toInt = rounding s.params.arithOverflow (s.integral.toInt + errorSum es) ∧
    t.lastError = es.getLastD s.lastError

theorem accumulates_nil {s t : State} (h : SameControl s t) : Accumulates [] s t := by
  obtain ⟨hint, hlast⟩ := h
  refine ⟨?_, hlast⟩
  rw [hint, errorSum, List.map_nil, List.sum_nil, add_zero, rounding_toInt]

theorem getLastD_append {α : Type} (as bs : List α) (d : α) : (as ++ bs).getLastD d = bs.getLastD (as.getLastD d) := by
  induction as generalizing d with
  | nil => rfl
  | cons a as ih => simp only [List.cons_append, List.getLastD_cons, ih]

theorem Accumulates.trans {es es' : List Word} {s u t : State} (h : Accumulates es s u) (hu : u.params = s.params)
    (h' : Accumulates es' u t) : Accumulates (es ++ es') s t := by
  obtain ⟨hint, hlast⟩ := h
  obtain ⟨hint', hlast'⟩ := h'
  constructor
  · rw [hint', hu, hint, rounding_add, errorSum, errorSum, errorSum, List.map_append, List.sum_append, add_assoc]
  · rw [hlast', hlast, getLastD_append]

/-- The error of the PID.STEP a step runs. -/
def pidError (s : State) : List Word := if s.phase = .pid then [s.errReg] else []

theorem pidErrors_succ (n : Nat) {s t : State} (hst : step s = .next t) :
    pidErrors (n + 1) s = pidError s ++ pidErrors n t := by
  rw [pidErrors, hst, pidError]

theorem commitPid_accumulates (s : State)
    (h : s.params.arithOverflow = .halt → PidFits s.errReg.toInt s.integral.toInt s.lastError.toInt) :
    Accumulates [s.errReg] s (commitPid s) := by
  refine ⟨?_, rfl⟩
  rw [commitPid_integral, errorSum, List.map_singleton, List.sum_singleton]
  cases hmode : s.params.arithOverflow with
  | wrap => exact integral32_toInt _ _
  | halt => exact integral32_toInt_of_fits (h hmode)

/-- A step in phase PID runs PID.STEP. -/
theorem step_pid_runs_pidStep {s : State} (hd : s.resetDone = true) (ho : offered s ≠ some .reset)
    (hp : s.phase = .pid) : step s = exec (.pidStep s.params.frameMode) s.passing :=
  step_internal ho hd (by rw [hp]; exact phaseLegal_pid _) (by simp [rxReady, hp]) (by simp [txValid, hp])
    (by simp only [selectedOp, hp])

/-- A step without a reset adds the error of its PID.STEP and does not halt, or it is a PID.STEP that halts and leaves
ControlState. -/
theorem step_accumulates {s t : State} (hd : s.resetDone = true) (h : EnvEvent.reset ∉ s.stimulus)
    (hst : step s = .next t) :
    (t.phase ≠ .halted ∧ Accumulates (pidError s) s t) ∨
    (t.phase = .halted ∧ s.params.arithOverflow = .halt ∧ pidError s = [s.errReg] ∧ SameControl s t) := by
  by_cases hp : s.phase = .pid
  · have herr : pidError s = [s.errReg] := if_pos hp
    rw [herr]
    rw [step_pid_runs_pidStep hd (offered_ne_reset h) hp] at hst
    cases exec_effect _ _ t hst with
    | pidHalt _ _ hhalt _ => exact .inr ⟨rfl, hhalt, rfl, rfl, rfl⟩
    | pidCommit _ _ hno =>
      refine .inl ⟨nofun, commitPid_accumulates s.passing fun hhalt => ?_⟩
      rw [← pidOverflows_eq_false_iff, ← Bool.not_eq_true]
      exact fun hover => hno ⟨hhalt, hover⟩
  · have herr : pidError s = [] := if_neg hp
    rw [herr]
    exact .inl ⟨fun hhalted => hp (step_halts_only_in_pid h hst hhalted),
      accumulates_nil (controlStateChangesOnlyInPhasePid s t hst (offered_ne_reset h) hp)⟩

/-! ## The law of a run -/

/-- A run without a reset accumulates every error that reached PID.STEP, or it ends in HALTED, which it enters at its
last step, and accumulates every error but the last. -/
theorem run_accumulates {n : Nat} {s t : State} (hd : s.resetDone = true) (h : EnvEvent.reset ∉ s.stimulus)
    (hrun : Host.Core.run core n s = .next t) :
    (Accumulates (pidErrors n s) s t ∧ (t.phase = .halted → s.phase = .halted)) ∨
    (t.phase = .halted ∧ s.params.arithOverflow = .halt ∧
      ∃ es e, pidErrors n s = es ++ [e] ∧ Accumulates es s t) := by
  induction n generalizing s with
  | zero =>
    cases hrun
    exact .inl ⟨accumulates_nil ⟨rfl, rfl⟩, id⟩
  | succ n ih =>
    obtain ⟨u, hst, hrun⟩ := run_succ_cases hrun
    obtain ⟨hparams, hno⟩ := step_keeps_run h hst
    have hdone := step_resetDone s u hst
    rw [pidErrors_succ n hst]
    obtain ⟨hu, hacc⟩ | ⟨hu, hhalt, herr, hsame⟩ := step_accumulates hd h hst
    · obtain ⟨hall, hto⟩ | ⟨ht, hhalt, es, e, herrs, hbut⟩ := ih hdone hno hrun
      · exact .inl ⟨hacc.trans hparams hall, fun ht => absurd (hto ht) hu⟩
      · exact .inr ⟨ht, hparams ▸ hhalt, pidError s ++ es, e, by rw [herrs, List.append_assoc],
          hacc.trans hparams hbut⟩
    · obtain rfl := run_halted hdone hno hu hrun
      cases hrun
      exact .inr ⟨hu, hhalt, [], s.errReg, by rw [herr]; rfl, accumulates_nil hsame⟩

/-- Under WRAP no error is left out. -/
theorem run_accumulates_wrap {n : Nat} {s t : State} (hd : s.resetDone = true) (hw : s.params.arithOverflow = .wrap)
    (h : EnvEvent.reset ∉ s.stimulus) (hrun : Host.Core.run core n s = .next t) :
    t.integral.toInt = wrapInt (s.integral.toInt + errorSum (pidErrors n s)) ∧
      t.lastError = (pidErrors n s).getLastD s.lastError := by
  obtain ⟨hacc, -⟩ | ⟨-, hhalt, -⟩ := run_accumulates hd h hrun
  · rwa [Accumulates, hw] at hacc
  · simp [hw] at hhalt

/-- Under HALT the sum is exact. -/
theorem Accumulates.exact_of_halt {es : List Word} {s t : State} (hacc : Accumulates es s t)
    (hh : s.params.arithOverflow = .halt) :
    t.integral.toInt = s.integral.toInt + errorSum es ∧ t.lastError = es.getLastD s.lastError := by
  rwa [Accumulates, hh] at hacc

/-- Settles O30, by `run_accumulates`; from reset both start values are 0. -/
theorem integralIsTheSumOfTheErrors : Obligations.IntegralIsTheSumOfTheErrors := by
  refine ⟨fun n s t hd hw h => run_accumulates_wrap hd hw h, fun n s t hd hh h hrun => ?_, ?_⟩
  · obtain ⟨hacc, hto⟩ | ⟨ht, -, es, e, herrs, hacc⟩ := run_accumulates hd h hrun
    · exact ⟨fun _ => hacc.exact_of_halt hh, fun hs ht => absurd (hto ht) hs⟩
    · rw [herrs, List.dropLast_concat]
      exact ⟨fun hne => absurd ht hne, fun _ _ => hacc.exact_of_halt hh⟩
  · rintro n p r evs s t hw h rfl hrun
    obtain ⟨hint, hlast⟩ := run_accumulates_wrap rfl hw h hrun
    refine ⟨hint.trans (congrArg wrapInt ?_), hlast⟩
    exact zero_add _

end Sys2Proof.Machine
end

section
/-! # What MAP.DRV does (44_drive_map.md R91 to R98) -/

namespace Sys2Proof.Machine

open Sys2Proof.Claims

/-! ## One MAP.DRV step -/

/-- The mapper has no failure (R91). -/
theorem exec_mapDrv_completes (m : FrameMode) (s : State) : ∃ t, exec (.mapDrv m) s = .next t := ⟨_, rfl⟩

/-- What MAP.DRV leaves unchanged in all four rows of R94, and the phase it goes to (R95). -/
theorem exec_mapDrv_frame {m : FrameMode} {s t : State} (hx : exec (.mapDrv m) s = .next t) :
    t.phase = .start ∧ t.cnt = s.cnt ∧ t.frameErr = s.frameErr ∧ SameControl s t ∧ SameLatches s t ∧
      SameBuffer s t ∧ SameEnvironment s t := by
  obtain ⟨hcnt, hmark⟩ := exec_count_mark _ s t hx (.inr (.inr ⟨m, rfl⟩))
  obtain ⟨hcontrol, hturn⟩ := exec_control _ s t hx nofun
  obtain ⟨herr, hf0, hf1⟩ := exec_decodeLatches _ s t hx nofun nofun
  have hbuf : t.buf = s.buf := exec_buf _ s t hx nofun nofun nofun
  exact ⟨exec_mapDrv_phase m s t hx, hcnt, hmark, hcontrol, ⟨herr, hf0, hf1, hturn⟩,
    fun k => congrArg (Memory.read · k) hbuf, exec_environment _ s t hx⟩

/-- The directions MAP.DRV drives: R94's table, in R95's order. -/
theorem driveDirections_opEvents_mapDrv (m : FrameMode) (s : State) :
    driveDirections (opEvents (.mapDrv m) s) =
      if s.flag0 = true ∨ s.flag1 = true then [(.a, s.flag0), (.b, s.flag1)] else [] := by
  simp only [opEvents]
  split <;> rfl

/-! ## The obligations -/

/-- Settles O32: R94's real rows by `exec_mapDrv_drives`, R93's clamps, and the frame of MAP.DRV. -/
theorem mapDrvDrivesBothMotors : Obligations.MapDrvDrivesBothMotors := by
  intro m s hflags
  obtain ⟨t, hx⟩ := exec_mapDrv_completes m s
  obtain ⟨hfa, hfb, hda, hdb, hgate, -⟩ := exec_mapDrv_drives hx hflags
  obtain ⟨hphase, hframe⟩ := exec_mapDrv_frame hx
  have hemits := exec_emits _ s t hx
  rw [opEvents, if_pos hflags, ← hfa, ← hfb, ← hda, ← hdb] at hemits
  exact ⟨t, hx, hfa, hfb, hda ▸ rightDuty_toNat _ _, hdb ▸ leftDuty_toNat _ _, hgate ▸ rangeGate_iff _, hphase, hemits,
    hframe⟩

/-- Settles O34, by `exec_mapDrv_standby`. -/
theorem standbyAfterMapIsGateOrStop : Obligations.StandbyAfterMapIsGateOrStop := by
  intro m s
  obtain ⟨t, hx⟩ := exec_mapDrv_completes m s
  exact ⟨t, hx, exec_mapDrv_standby m s t hx⟩

/-- Settles O35: the directions emitted are R94's table, which reads the flags and nothing else. -/
theorem directionsDependOnTheFlagsAlone : Obligations.DirectionsDependOnTheFlagsAlone := by
  intro m m' s s' h0 h1
  obtain ⟨t, hx⟩ := exec_mapDrv_completes m s
  obtain ⟨t', hx'⟩ := exec_mapDrv_completes m' s'
  refine ⟨t, t', _, _, hx, hx', exec_emits _ s t hx, exec_emits _ s' t' hx', ?_, fun hf0 hf1 => ?_⟩
  · rw [driveDirections_opEvents_mapDrv, driveDirections_opEvents_mapDrv, h0, h1]
  · rw [driveDirections_opEvents_mapDrv, if_pos (.inl hf0), hf0, hf1]

/-- Settles O33: R94's last row by `exec_mapDrv_holds`, and the frame of MAP.DRV. -/
theorem mapDrvStopCaseHoldsTheMotors : Obligations.MapDrvStopCaseHoldsTheMotors := by
  intro m s h0 h1
  obtain ⟨t, hx⟩ := exec_mapDrv_completes m s
  obtain ⟨hmotors, hstandby, -⟩ := exec_mapDrv_holds hx ⟨h0, h1⟩
  have hnone : opEvents (.mapDrv m) s = [] := by simp [opEvents, h0, h1]
  exact ⟨t, hx, hmotors, hnone ▸ exec_emits _ s t hx, hstandby, exec_mapDrv_frame hx⟩

end Sys2Proof.Machine
end

section
/-! # Fault reports, abandonment and HALTED (60_exceptions.md R101 to R104, R110) -/

namespace Sys2Proof.Machine

open Sys2Proof.Claims

/-! ## The report an operation makes -/

/-- What a step emits is one list. -/
theorem emits_unique {s t : State} {evs evs' : List OutEvent} (h : Emits s t evs) (h' : Emits s t evs') : evs = evs' :=
  List.append_cancel_left (h.1.symm.trans h'.1)

/-- Of the four shapes of an operation's events only a lone report holds a fault (R102). -/
theorem opEvents_of_fault_mem {i : Instr} {s : State} {st : Stage} (h : .fault st ∈ opEvents i s) :
    opEvents i s = [.fault st] := by
  obtain hnone | htx | ⟨st', -, hreport⟩ | ⟨fa, da, fb, db, -, -, hdrive⟩ := opEvents_shape i s
  · simp [hnone] at h
  · simp [htx] at h
  · rw [hreport] at h ⊢
    exact congrArg (· :: []) (List.mem_singleton.1 h).symm
  · simp [hdrive] at h

theorem reportedStage_of_fault_mem {i : Instr} {s : State} {st : Stage} (h : .fault st ∈ opEvents i s) :
    reportedStage i s = some st := by
  rw [← opEvents_stage, opEvents_of_fault_mem h]
  rfl

/-- A report: the whole new state (R102). -/
theorem raiseFault_eq (st : Stage) (s : State) :
    raiseFault st s =
      { s with
        standby := standbyAfterFault s, stepEvents := s.stepEvents ++ [.fault st], trace := s.trace ++ [.fault st] } := rfl

/-- The stage a lone report shows on the fault port (30_encoding.md R57). -/
theorem faultStage_of_report {s : State} {st : Stage} (h : s.stepEvents = [.fault st]) : faultStage s = some st.code := by
  rw [faultStage, h]
  rfl

/-! ## The obligations -/

/-- Settles O37, by `opEvents` and, for the operations that do not report, `reportedStage`. -/
theorem faultsComeFromTheirOperationsAlone : Obligations.FaultsComeFromTheirOperationsAlone := by
  intro i s t hx
  have hemits := exec_emits i s t hx
  refine ⟨?_, ?_, fun hfixf hhuntf hbodyf hstr evs hevs st hmem => ?_⟩
  · rintro (rfl | rfl | rfl) <;> exact hemits
  · rintro rfl
    exact hemits
  · rw [emits_unique hevs hemits] at hmem
    have hreports : (reportedStage i s).isSome = true := by rw [reportedStage_of_fault_mem hmem]; rfl
    rw [reportedStage_isSome_iff, reportedStage_read_iff, reportedStage_decode_iff] at hreports
    simp [hfixf, hhuntf, hbodyf, hstr] at hreports

/-- Settles O38: R102's standby write in `standbyAfterFault_eq`, and `opEvents_of_fault_mem` for the event alone. -/
theorem faultReportWritesStandbyOnly : Obligations.FaultReportWritesStandbyOnly := by
  constructor
  · intro st s hs
    have hstage : faultStage (raiseFault st s) = some st.code := faultStage_of_report (by simp [hs])
    refine ⟨?_, by rw [faultValid, hstage]; rfl, hstage⟩
    simp only [raiseFault_eq, standbyAfterFault_eq, hs, List.nil_append]
  · intro i s t evs st hx hevs hmem
    rw [emits_unique hevs (exec_emits i s t hx)] at hmem ⊢
    have hreport := reportedStage_of_fault_mem hmem
    have hmap (m : FrameMode) : i ≠ .mapDrv m := by
      rintro rfl
      cases hreport
    refine ⟨opEvents_of_fault_mem hmem, ?_⟩
    rw [StandbyOfFault, exec_standby i s t hx hmap, hreport, ← standbyAfterFault_eq]
    rfl

/-- Settles O12: `step_of_halted`, and a reset step goes to START from any phase. -/
theorem haltedIsStuckUntilReset : Obligations.HaltedIsStuckUntilReset := by
  intro s hp hd
  exact ⟨fun ho => step_of_halted s ((rst_eq_false_iff s).2 ho) hd hp,
    fun ho => ⟨_, step_of_rst s (by simp [rst, ho]), rfl⟩⟩

/-- Settles O39, by the definition of `abandon`. -/
theorem abandonWritesThreeElements : Obligations.AbandonWritesThreeElements := fun _ => rfl

end Sys2Proof.Machine
end

section
/-! # Waits, runs before a reset, and the parameters (70_reset_and_hazards.md R117, R119, R120) -/

namespace Sys2Proof.Machine

open Sys2Proof.Claims

/-! ## When no key is formed (30_encoding.md R61) -/

/-- The phases of a receive (10_state.md R34). -/
theorem rxReady_iff (s : State) : rxReady s = true ↔ s.phase = .recv ∨ s.phase = .hunt ∨ s.phase = .body := by
  unfold rxReady
  cases s.phase <;> simp

theorem receiveKey_eq_none_iff (s : State) : receiveKey s = none ↔ rxValid s = false := by
  cases ho : offered s with
  | none => simp only [receiveKey, rxValid, ho]
  | some e => cases e <;> simp [receiveKey, rxValid, ho]

theorem formKey_of_rxReady {s : State} (h : rxReady s = true) : formKey s = receiveKey s := by
  obtain hp | hp | hp := (rxReady_iff s).1 h <;> rw [formKey, hp]

/-- A receive phase forms no key exactly without a receive transfer. -/
theorem formKey_eq_none_iff_of_rxReady {s : State} (h : rxReady s = true) :
    formKey s = none ↔ rxTransfer s = false := by
  rw [formKey_of_rxReady h, receiveKey_eq_none_iff, rxTransfer, h, Bool.true_and]

/-- FIXED mode in START forms no key exactly without a transmit transfer. -/
theorem formKey_eq_none_iff_of_start_fixed {s : State} (hp : s.phase = .start) (hm : s.params.frameMode = .fixed) :
    formKey s = none ↔ txTransfer s = false := by
  simp [formKey_start_fixed s hp hm]

/-- Settles O11, by the phase: the receive phases and START of FIXED mode wait for their transfer, the internal
phases and START of DELIMITED mode always form a key. -/
theorem waitsAreExactlyTheBlockedTransfers : Obligations.WaitsAreExactlyTheBlockedTransfers := by
  intro s
  have receive := @formKey_eq_none_iff_of_rxReady s
  rw [rxReady_iff] at receive
  cases hp : s.phase with
  | recv => simpa using receive (.inl hp)
  | hunt => simpa using receive (.inr (.inl hp))
  | body => simpa using receive (.inr (.inr hp))
  | start =>
    cases hm : s.params.frameMode with
    | fixed => simpa using formKey_eq_none_iff_of_start_fixed hp hm
    | delimited => simp [formKey, hp, hm]
  | decode => simp [formKey, hp]
  | pid => simp [formKey, hp]
  | map => simp [formKey, hp]
  | halted => simp [formKey, hp]

/-! ## What a wait does (R120) -/

/-- A block that forms no key makes no transfer. -/
theorem no_transfer_of_formKey_none {s : State} (hk : formKey s = none) :
    rxTransfer s = false ∧ txTransfer s = false := by
  constructor
  · cases hrx : rxReady s with
    | true => exact (formKey_eq_none_iff_of_rxReady hrx).1 hk
    | false => rw [rxTransfer, hrx, Bool.false_and]
  · cases htx : txValid s with
    | true =>
      obtain ⟨hm, hp⟩ : s.params.frameMode = .fixed ∧ s.phase = .start := by simpa [txValid] using htx
      exact (formKey_eq_none_iff_of_start_fixed hp hm).1 hk
    | false => rw [txTransfer, htx, Bool.false_and]

/-- Without a transfer the step takes an idle event and no other (R121). -/
theorem takeEvent_settle_of_no_transfer {s : State} (hrx : rxTransfer s = false) (htx : txTransfer s = false) :
    takeEvent (settle s) = { settle s with stimulus := afterIdle (pending s) } := by
  rw [takeEvent_eq]
  cases hs : pending s with
  | nil => rw [takeEvent_stimulus_nil (settle s) hs]; rfl
  | cons e rest =>
    have he : offered s = some e := congrArg List.head? hs
    have htake : takes s e = true ↔ e = .idle := by simpa [hrx, htx] using takes_offered_iff s e he
    rw [takeEvent_stimulus_cons (settle s) e rest hs]
    simp only [takes_settle, htake, afterIdle, List.head?_cons, Option.some.injEq, List.tail_cons]

/-- Settles O10: a step without a key is a wait, and a wait makes no transfer. -/
theorem waitChangesNoRegister : Obligations.WaitChangesNoRegister := by
  intro s ho hd hp hk
  obtain ⟨hrx, htx⟩ := no_transfer_of_formKey_none hk
  rw [step_of_wait s ((rst_eq_false_iff s).2 ho) hd hp hk, takeEvent_settle_of_no_transfer hrx htx]
  rfl

/-! ## The parameters (R119) and the run before a reset (R117) -/

/-- Settles O44: a reset and a wait carry the parameters over, and no operation writes them. -/
theorem parametersNeverChange : Obligations.ParametersNeverChange := by
  intro s t hst
  obtain ⟨-, rfl⟩ | ⟨-, -, -, -, rfl⟩ | ⟨-, -, -, k, i, -, -, hx⟩ := step_cases s t hst
  · rw [applyReset_params, settle_params]
  · rw [takeEvent_params, settle_params]
  · obtain ⟨hparams, -⟩ := exec_environment i _ t hx
    rw [hparams, takeEvent_params, settle_params]

theorem step_before_reset (s : State) (hr : rst s = false) (hd : s.resetDone = false) :
    step s = .refused .notReset := by
  simp [step, runSettled, hr, hd]

/-- Settles O15: power-on clears the flag and leaves what is offered, so `step_before_reset` applies. -/
theorem beforeResetEveryStepIsRefused : Obligations.BeforeResetEveryStepIsRefused := fun s ho =>
  step_before_reset s.powerOn ((rst_eq_false_iff s.powerOn).2 ho) rfl

end Sys2Proof.Machine
end
